-- ==== Sys2Proof/Word.lean ====
section
/-!
DEFINITION. The word types of the SuperK telegram codec (STC), spec/00_scope.md rule R7: bytes are
unsigned 8-bit values, sums are modulo 256, CRCs and 16-bit CSR pairs are 16 bits wide, and a host
address has ADDR_W = 7 bits (rule R6).
-/

namespace Sys2Proof

/-- One byte, rule R7. -/
abbrev Byte := BitVec 8

/-- A 16-bit value: a CRC or a pair of CSRs, rules R7 and R83. -/
abbrev Word16 := BitVec 16

/-- An address of the host space, 0x00 to 0x7F, rule R80. -/
abbrev HostAddr := BitVec 7

end Sys2Proof
end

