-- ==== Sys2Proof/Config.lean ====
section
/-!
DEFINITION. What is fixed for one STC: the parameters of spec/00_scope.md rule R6, the names of the
encoding formats (spec/30_encoding.md rule R100), the moves of the agents (spec/10_state.md rule
R30), and the free values: constants without a body, so that nothing can be proved of a value the
spec leaves open (notes/assumptions/4, 5 and 19).
-/

namespace Sys2Proof

/-- The formats of rule R100 that spec/opcode_table.json has rows of. -/
inductive Format where
  | cmd   -- the byte written to CMD, rule R102
  | bus   -- one host bus access, rule R101
  | req   -- the command code of a request body, rules R104 and R105
  | rsp   -- the type of a response body, rules R106 and R107
  | sym   -- one symbol on the line, rule R110
  | char  -- one UART character, rule R291
  deriving DecidableEq, Repr

/-- The two commands that open a transaction: `st.op` of rule R51. -/
inductive Op where
  | read
  | write
  deriving DecidableEq, Repr, Inhabited

/-- One host bus access, rules R310 and R311. -/
inductive Access where
  | read (a : HostAddr)
  | write (a : HostAddr) (d : Byte)
  deriving DecidableEq, Repr, Inhabited

/-- What LINE can deliver: a character with a good stop bit (rule R295) or a framing error (rule R296). -/
inductive LineEvent where
  | byte (b : Byte)
  | framingError
  deriving DecidableEq, Repr, Inhabited

/-- One move of one agent of rule R30. -/
inductive Move where
  | host (x : Access)
  | seq
  | utx
  | line (e : LineEvent)
  | tick
  | rst
  deriving DecidableEq, Repr, Inhabited

/-- The buffer depths, the two parameters of rule R6 that a model takes as an argument and a rule
reads (notes/assumptions/18). -/
structure Config.Params where
  /-- P_TXBUF, depth of TXBUF in bytes. -/
  txbuf : Nat
  /-- P_RXBUF, depth of RXBUF in bytes. -/
  rxbuf : Nat
  deriving DecidableEq, Repr

/-- The defaults of rule R6: P_TXBUF = 32 and P_RXBUF = 64. -/
def Config.Params.default : Config.Params := { txbuf := 32, rxbuf := 64 }

/-- P_BAUD, rule R6. -/
def Config.baud : Nat := 115200

/-- P_DATA_BITS, rule R6. -/
def Config.dataBits : Nat := 8

/-- P_STOP_BITS, rule R6. There is no parity bit (P_PARITY). -/
def Config.stopBits : Nat := 1

/-- Length of a character in bit periods, rule R291: one start bit, the data bits, the stop bit. -/
def Config.charBits : Nat := 1 + Config.dataBits + Config.stopBits

/-- DEST_DEFAULT, rule R6. -/
def Config.destDefault : Byte := 0x0F

/-- SRC_MIN, rule R6. SRC_MAX = 0xFF needs no check, since SRC has 8 bits (rule R206). -/
def Config.srcMin : Byte := 0xA1

/-- The free part of P_CLK_HZ, which is OPEN (rule R6): no rule of the model reads it. -/
opaque Config.clkExcess : Nat

/-- P_CLK_HZ, rule R6: OPEN, but at least 16 × P_BAUD (decision D29). -/
def Config.clkHz : Nat := 16 * Config.baud + Config.clkExcess

/-- P_BAUD_DIV, rule R292, OPEN (decision D45): how the bit clock is derived; read by no rule. -/
opaque Config.baudDiv : Nat

/-- P_BASE, rule R89, OPEN (decision D40): the platform's base address; the model addresses the host
space from 0x00. -/
opaque Config.base : Nat

/-- P_IRQ_ROUTE, rule R355, OPEN (decision D44): how irq reaches a processor; read by no rule. -/
opaque Config.irqRoute : Nat

/-- P_RST_KIND, rule R382, OPEN (decision D41): pin polarity and synchrony of reset; read by no rule. -/
opaque Config.rstKind : Bool × Bool

/-- Free value: the move taken when the agenda is empty (rule R11: any interleaving), at the counter
`fresh` (notes/assumptions/5). -/
opaque Config.freeMove : Nat → Move

/-- Free value: byte i of TXBUF after the RST step taken at counter n (rule R380, notes/assumptions/4). -/
opaque Config.resetTxbuf : Nat → Nat → Byte

/-- Free value: byte i of RXBUF after the RST step taken at counter n (rule R380, notes/assumptions/4). -/
opaque Config.resetRxbuf : Nat → Nat → Byte

/-- Free value: `st.op` after the RST step taken at counter n (rule R380, notes/assumptions/4). -/
opaque Config.resetOp : Nat → Op

/-- Free value: `st.utx_byte` after the RST step taken at counter n (rule R380, notes/assumptions/4). -/
opaque Config.resetUtxByte : Nat → Byte

end Sys2Proof
end

