-- ==== Sys2Proof/Syntax.lean ====
section
/-!
DEFINITION. The instructions of the STC: one constructor for each of the 92 rows of
spec/opcode_table.json, in the table's order. A row's free bits are the constructor's arguments: `d`
the byte written, `i` the buffer index, `t` a reserved response type, `y` the second byte of a
non-canonical escape pair, `b` a literal byte or the byte of a character.
-/

namespace Sys2Proof

/-- The instructions, one constructor for each row of spec/opcode_table.json. -/
inductive Instr where
  -- CMD format: the byte HOST writes to CMD (rules R102 and R103).
  | nop  -- NOP, rule R200
  | read  -- READ, rule R201
  | write  -- WRITE, rule R202
  | cmdRsv03  -- CMD_RSV_03, rule R204
  | cmdRsv (op : BitVec 2) (rsv : BitVec 6)  -- CMD_RSV, rule R204
  -- BUS format: one host bus access (rule R101).
  | rdCtrl  -- RD_CTRL, rule R310
  | wrCtrl (d : Byte)  -- WR_CTRL, rule R314
  | rdCmd  -- RD_CMD, rule R205
  | wrCmdNop  -- WR_CMD_NOP, rule R200
  | wrCmdRead  -- WR_CMD_READ, rule R201
  | wrCmdWrite  -- WR_CMD_WRITE, rule R202
  | wrCmdRsv (d : Byte)  -- WR_CMD_RSV, rule R204
  | rdStatus  -- RD_STATUS, rule R310
  | wrStatus (d : Byte)  -- WR_STATUS, rule R315
  | rdErrcode  -- RD_ERRCODE, rule R310
  | wrErrcode (d : Byte)  -- WR_ERRCODE, rule R312
  | rdDest  -- RD_DEST, rule R310
  | wrDest (d : Byte)  -- WR_DEST, rule R316
  | rdSrc  -- RD_SRC, rule R310
  | wrSrc (d : Byte)  -- WR_SRC, rule R316
  | rdReg  -- RD_REG, rule R310
  | wrReg (d : Byte)  -- WR_REG, rule R316
  | rdTxLen  -- RD_TX_LEN, rule R310
  | wrTxLen (d : Byte)  -- WR_TX_LEN, rule R316
  | rdToLimitHi  -- RD_TO_LIMIT_HI, rule R310
  | wrToLimitHi (d : Byte)  -- WR_TO_LIMIT_HI, rule R316
  | rdToLimitLo  -- RD_TO_LIMIT_LO, rule R310
  | wrToLimitLo (d : Byte)  -- WR_TO_LIMIT_LO, rule R316
  | rdRxBlen  -- RD_RX_BLEN, rule R310
  | wrRxBlen (d : Byte)  -- WR_RX_BLEN, rule R312
  | rdTxCrcHi  -- RD_TX_CRC_HI, rule R310
  | wrTxCrcHi (d : Byte)  -- WR_TX_CRC_HI, rule R312
  | rdTxCrcLo  -- RD_TX_CRC_LO, rule R310
  | wrTxCrcLo (d : Byte)  -- WR_TX_CRC_LO, rule R312
  | rdRxResHi  -- RD_RX_RES_HI, rule R310
  | wrRxResHi (d : Byte)  -- WR_RX_RES_HI, rule R312
  | rdRxResLo  -- RD_RX_RES_LO, rule R310
  | wrRxResLo (d : Byte)  -- WR_RX_RES_LO, rule R312
  | rdRxInfo  -- RD_RX_INFO, rule R310
  | wrRxInfo (d : Byte)  -- WR_RX_INFO, rule R312
  | rdCrcAccHi  -- RD_CRC_ACC_HI, rule R183
  | wrCrcAccHi (d : Byte)  -- WR_CRC_ACC_HI, rule R180
  | rdCrcAccLo  -- RD_CRC_ACC_LO, rule R183
  | wrCrcAccLo (d : Byte)  -- WR_CRC_ACC_LO, rule R181
  | rdCrcIn  -- RD_CRC_IN, rule R183
  | wrCrcIn (d : Byte)  -- WR_CRC_IN, rule R182
  | rdRsv13  -- RD_RSV_13, rule R310
  | wrRsv13 (d : Byte)  -- WR_RSV_13, rule R312
  | rdRsv14  -- RD_RSV_14, rule R310
  | wrRsv14 (d : Byte)  -- WR_RSV_14, rule R312
  | rdRsv15  -- RD_RSV_15, rule R310
  | wrRsv15 (d : Byte)  -- WR_RSV_15, rule R312
  | rdRsv16  -- RD_RSV_16, rule R310
  | wrRsv16 (d : Byte)  -- WR_RSV_16, rule R312
  | rdRsv17  -- RD_RSV_17, rule R310
  | wrRsv17 (d : Byte)  -- WR_RSV_17, rule R312
  | rdRsv18  -- RD_RSV_18, rule R310
  | wrRsv18 (d : Byte)  -- WR_RSV_18, rule R312
  | rdRsv19  -- RD_RSV_19, rule R310
  | wrRsv19 (d : Byte)  -- WR_RSV_19, rule R312
  | rdRsv1A  -- RD_RSV_1A, rule R310
  | wrRsv1A (d : Byte)  -- WR_RSV_1A, rule R312
  | rdRsv1B  -- RD_RSV_1B, rule R310
  | wrRsv1B (d : Byte)  -- WR_RSV_1B, rule R312
  | rdRsv1C  -- RD_RSV_1C, rule R310
  | wrRsv1C (d : Byte)  -- WR_RSV_1C, rule R312
  | rdRsv1D  -- RD_RSV_1D, rule R310
  | wrRsv1D (d : Byte)  -- WR_RSV_1D, rule R312
  | rdRsv1E  -- RD_RSV_1E, rule R310
  | wrRsv1E (d : Byte)  -- WR_RSV_1E, rule R312
  | rdRsv1F  -- RD_RSV_1F, rule R310
  | wrRsv1F (d : Byte)  -- WR_RSV_1F, rule R312
  | rdTxbuf (i : BitVec 5)  -- RD_TXBUF, rule R310
  | wrTxbuf (i : BitVec 5) (d : Byte)  -- WR_TXBUF, rule R316
  | rdRxbuf (i : BitVec 6)  -- RD_RXBUF, rule R310
  | wrRxbuf (i : BitVec 6) (d : Byte)  -- WR_RXBUF, rule R312
  -- REQ format: the command code a request carries (rule R105).
  | reqRead  -- REQ_READ, rule R105
  | reqWrite  -- REQ_WRITE, rule R105
  -- RSP format: the type byte of a response (rule R107).
  | rspNotUnderstood  -- RSP_NOT_UNDERSTOOD, rule R254
  | rspCrcError  -- RSP_CRC_ERROR, rule R254
  | rspBusy  -- RSP_BUSY, rule R254
  | rspWriteAck  -- RSP_WRITE_ACK, rule R254
  | rspReadAck  -- RSP_READ_ACK, rule R254
  | rspReserved (t : Byte)  -- RSP_RESERVED, rule R254
  -- SYM format: one symbol on the line (rule R110).
  | symStart  -- START, rule R241
  | symEnd  -- END, rule R242
  | esc0A  -- ESC_0A, rule R140
  | esc0D  -- ESC_0D, rule R140
  | esc5E  -- ESC_5E, rule R140
  | escNoncanon (y : Byte)  -- ESC_NONCANON, rule R244
  | literal (b : Byte)  -- LITERAL, rule R141
  -- CHAR format: one UART character (rule R291).
  | char (b : Byte)  -- CHAR, rule R291
  deriving DecidableEq, Repr

end Sys2Proof
end

