-- ==== Sys2Proof/WellFormed.lean ====
section
/-!
DEFINITION. Well-formed instructions and parameters. A "lowest priority" row of
spec/opcode_table.json excludes the words of the rows above it; every other operand value is legal.
-/

namespace Sys2Proof

/-- The ranges of P_TXBUF and P_RXBUF, rule R6. -/
def Config.Params.wf (p : Config.Params) : Bool :=
  decide (2 ≤ p.txbuf) && decide (p.txbuf ≤ 32) && decide (6 ≤ p.rxbuf) && decide (p.rxbuf ≤ 64)

/-- An instruction whose operands its row of the table admits. -/
def Instr.wf : Instr → Bool
  | .nop => true
  | .read => true
  | .write => true
  | .cmdRsv03 => true
  | .cmdRsv _ rsv => rsv != 0#6  -- rule R103: every byte 0x04 to 0xFF
  | .rdCtrl => true
  | .wrCtrl _ => true
  | .rdCmd => true
  | .wrCmdNop => true
  | .wrCmdRead => true
  | .wrCmdWrite => true
  | .wrCmdRsv d => d != 0x00#8 && d != 0x01#8 && d != 0x02#8  -- rule R204
  | .rdStatus => true
  | .wrStatus _ => true
  | .rdErrcode => true
  | .wrErrcode _ => true
  | .rdDest => true
  | .wrDest _ => true
  | .rdSrc => true
  | .wrSrc _ => true
  | .rdReg => true
  | .wrReg _ => true
  | .rdTxLen => true
  | .wrTxLen _ => true
  | .rdToLimitHi => true
  | .wrToLimitHi _ => true
  | .rdToLimitLo => true
  | .wrToLimitLo _ => true
  | .rdRxBlen => true
  | .wrRxBlen _ => true
  | .rdTxCrcHi => true
  | .wrTxCrcHi _ => true
  | .rdTxCrcLo => true
  | .wrTxCrcLo _ => true
  | .rdRxResHi => true
  | .wrRxResHi _ => true
  | .rdRxResLo => true
  | .wrRxResLo _ => true
  | .rdRxInfo => true
  | .wrRxInfo _ => true
  | .rdCrcAccHi => true
  | .wrCrcAccHi _ => true
  | .rdCrcAccLo => true
  | .wrCrcAccLo _ => true
  | .rdCrcIn => true
  | .wrCrcIn _ => true
  | .rdRsv13 => true
  | .wrRsv13 _ => true
  | .rdRsv14 => true
  | .wrRsv14 _ => true
  | .rdRsv15 => true
  | .wrRsv15 _ => true
  | .rdRsv16 => true
  | .wrRsv16 _ => true
  | .rdRsv17 => true
  | .wrRsv17 _ => true
  | .rdRsv18 => true
  | .wrRsv18 _ => true
  | .rdRsv19 => true
  | .wrRsv19 _ => true
  | .rdRsv1A => true
  | .wrRsv1A _ => true
  | .rdRsv1B => true
  | .wrRsv1B _ => true
  | .rdRsv1C => true
  | .wrRsv1C _ => true
  | .rdRsv1D => true
  | .wrRsv1D _ => true
  | .rdRsv1E => true
  | .wrRsv1E _ => true
  | .rdRsv1F => true
  | .wrRsv1F _ => true
  | .rdTxbuf _ => true
  | .wrTxbuf _ _ => true
  | .rdRxbuf _ => true
  | .wrRxbuf _ _ => true
  | .reqRead => true
  | .reqWrite => true
  | .rspNotUnderstood => true
  | .rspCrcError => true
  | .rspBusy => true
  | .rspWriteAck => true
  | .rspReadAck => true
  | .rspReserved t => t != 0x00#8 && t != 0x01#8 && t != 0x02#8 && t != 0x03#8 && t != 0x08#8  -- rule R107
  | .symStart => true
  | .symEnd => true
  | .esc0A => true
  | .esc0D => true
  | .esc5E => true
  | .escNoncanon y => y != 0x4A#8 && y != 0x4D#8 && y != 0x9E#8 && y != 0x0A#8  -- rule R110
  | .literal b => b != 0x0A#8 && b != 0x0D#8 && b != 0x5E#8  -- rule R110
  | .char _ => true

end Sys2Proof
end

