-- ==== Sys2Proof/Decode.lean ====
section
/-!
DEFINITION. The decoder and the encoder, spec/30_encoding.md rules R100 to R115. The six formats
have overlapping bits (0x01 is READ as a CMD byte, RSP_CRC_ERROR as a response type and LITERAL on
the line), so decoding takes the format it reads. Words are stored first byte first: of a BUS word
the byte that holds W and A, of a symbol the byte that arrives first, of a character word the byte
that holds the start bit (notes/assumptions/13 and 14).
-/

namespace Sys2Proof

/-- Why bytes are not the encoding of an instruction of the format read. -/
inductive DecodeError where
  | truncated       -- fewer bytes than the format's shortest word
  | readWithData    -- a BUS read word whose field D is not 0 (rule R101)
  | requestCode     -- a telegram command code other than 0x04 and 0x05 (rule R105)
  | charPadding     -- bits above the 10 of a character are set
  | noStartBit      -- the first level of a character is not 0 (rule R291)
  | stopBitZero     -- the stop bit of a character is 0: a framing error (rule R296)
  deriving DecidableEq, Repr

/-! ### Fields -/

/-- The bytes of a BUS word, rule R101: W and A in the first, D in the second. -/
def busBytes (w : Bool) (a : HostAddr) (d : Byte) : List Byte := [BitVec.ofBool w ++ a, d]

/-- Host address of TXBUF[i], rule R80. -/
def txbufAddr (i : BitVec 5) : HostAddr := 0b01#2 ++ i

/-- Host address of RXBUF[i], rule R80. -/
def rxbufAddr (i : BitVec 6) : HostAddr := 0b1#1 ++ i

/-- The bits of a byte in the order the line carries them, b[0] first (rule R291). -/
def lsbFirst (b : Byte) : BitVec 8 :=
  BitVec.ofBool (b.getLsbD 0) ++ BitVec.ofBool (b.getLsbD 1) ++ BitVec.ofBool (b.getLsbD 2)
    ++ BitVec.ofBool (b.getLsbD 3) ++ BitVec.ofBool (b.getLsbD 4) ++ BitVec.ofBool (b.getLsbD 5)
    ++ BitVec.ofBool (b.getLsbD 6) ++ BitVec.ofBool (b.getLsbD 7)

/-- The ten levels of a character, first level leftmost (the table's `0dddddddd1`), in 16 bits. -/
def charWord (b : Byte) : Word16 := (0#6 ++ 0#1) ++ lsbFirst b ++ 1#1

/-- The bytes of a character word. -/
def charBytes (b : Byte) : List Byte := [(charWord b).extractLsb' 8 8, (charWord b).setWidth 8]

/-! ### Decoding -/

/-- Rule R103: exact match on all 8 bits of the byte written to CMD. -/
def decodeCmd (d : Byte) : Instr :=
  match d.toNat with
  | 0x00 => .nop
  | 0x01 => .read
  | 0x02 => .write
  | 0x03 => .cmdRsv03
  | _ => .cmdRsv (d.setWidth 2) (d.extractLsb' 2 6)

/-- Rule R310: the read at host address a. -/
def decodeBusRead (a : HostAddr) : Instr :=
  match a.toNat with
  | 0x00 => .rdCtrl
  | 0x01 => .rdCmd
  | 0x02 => .rdStatus
  | 0x03 => .rdErrcode
  | 0x04 => .rdDest
  | 0x05 => .rdSrc
  | 0x06 => .rdReg
  | 0x07 => .rdTxLen
  | 0x08 => .rdRxBlen
  | 0x09 => .rdTxCrcHi
  | 0x0A => .rdTxCrcLo
  | 0x0B => .rdRxResHi
  | 0x0C => .rdRxResLo
  | 0x0D => .rdToLimitHi
  | 0x0E => .rdToLimitLo
  | 0x0F => .rdCrcAccHi
  | 0x10 => .rdCrcAccLo
  | 0x11 => .rdCrcIn
  | 0x12 => .rdRxInfo
  | 0x13 => .rdRsv13
  | 0x14 => .rdRsv14
  | 0x15 => .rdRsv15
  | 0x16 => .rdRsv16
  | 0x17 => .rdRsv17
  | 0x18 => .rdRsv18
  | 0x19 => .rdRsv19
  | 0x1A => .rdRsv1A
  | 0x1B => .rdRsv1B
  | 0x1C => .rdRsv1C
  | 0x1D => .rdRsv1D
  | 0x1E => .rdRsv1E
  | 0x1F => .rdRsv1F
  | n => if n < 0x40 then .rdTxbuf (a.setWidth 5) else .rdRxbuf (a.setWidth 6)

/-- Rules R200 to R204: the write of d to CMD as a BUS row. -/
def decodeBusCommand (d : Byte) : Instr :=
  match d.toNat with
  | 0x00 => .wrCmdNop
  | 0x01 => .wrCmdRead
  | 0x02 => .wrCmdWrite
  | _ => .wrCmdRsv d

/-- Rule R311: the write of d at host address a. -/
def decodeBusWrite (a : HostAddr) (d : Byte) : Instr :=
  match a.toNat with
  | 0x00 => .wrCtrl d
  | 0x01 => decodeBusCommand d
  | 0x02 => .wrStatus d
  | 0x03 => .wrErrcode d
  | 0x04 => .wrDest d
  | 0x05 => .wrSrc d
  | 0x06 => .wrReg d
  | 0x07 => .wrTxLen d
  | 0x08 => .wrRxBlen d
  | 0x09 => .wrTxCrcHi d
  | 0x0A => .wrTxCrcLo d
  | 0x0B => .wrRxResHi d
  | 0x0C => .wrRxResLo d
  | 0x0D => .wrToLimitHi d
  | 0x0E => .wrToLimitLo d
  | 0x0F => .wrCrcAccHi d
  | 0x10 => .wrCrcAccLo d
  | 0x11 => .wrCrcIn d
  | 0x12 => .wrRxInfo d
  | 0x13 => .wrRsv13 d
  | 0x14 => .wrRsv14 d
  | 0x15 => .wrRsv15 d
  | 0x16 => .wrRsv16 d
  | 0x17 => .wrRsv17 d
  | 0x18 => .wrRsv18 d
  | 0x19 => .wrRsv19 d
  | 0x1A => .wrRsv1A d
  | 0x1B => .wrRsv1B d
  | 0x1C => .wrRsv1C d
  | 0x1D => .wrRsv1D d
  | 0x1E => .wrRsv1E d
  | 0x1F => .wrRsv1F d
  | n => if n < 0x40 then .wrTxbuf (a.setWidth 5) d else .wrRxbuf (a.setWidth 6) d

/-- Rule R101: W chooses the direction; D of a read is 0. -/
def decodeBus (hi lo : Byte) : Except DecodeError Instr :=
  if hi.msb then .ok (decodeBusWrite (hi.setWidth 7) lo)
  else if lo = 0x00 then .ok (decodeBusRead (hi.setWidth 7))
  else .error .readWithData

/-- Rule R105: the two telegram command codes. -/
def decodeReq (c : Byte) : Except DecodeError Instr :=
  if c = 0x04 then .ok .reqRead
  else if c = 0x05 then .ok .reqWrite
  else .error .requestCode

/-- Rule R107: the response type, body byte 2. -/
def decodeRsp (t : Byte) : Instr :=
  match t.toNat with
  | 0x00 => .rspNotUnderstood
  | 0x01 => .rspCrcError
  | 0x02 => .rspBusy
  | 0x03 => .rspWriteAck
  | 0x08 => .rspReadAck
  | _ => .rspReserved t

/-- Rule R110: an escape pair, from its second byte y ≠ 0x0A. -/
def decodePair (y : Byte) : Instr :=
  match y.toNat with
  | 0x4A => .esc0A
  | 0x4D => .esc0D
  | 0x9E => .esc5E
  | _ => .escNoncanon y

/-- Rule R111: 0x5E starts a two-byte symbol, any other byte is a one-byte symbol. Before END, or
with nothing after it, 0x5E is a character on its own (rule R110, notes/assumptions/22). -/
def decodeSym : List Byte → Except DecodeError (Instr × List Byte)
  | [] => .error .truncated
  | b :: rest =>
    if b = 0x0D then .ok (.symStart, rest)
    else if b = 0x0A then .ok (.symEnd, rest)
    else if b = 0x5E then
      match rest with
      | [] => .ok (.char b, [])
      | y :: rest' => if y = 0x0A then .ok (.char b, rest) else .ok (decodePair y, rest')
    else .ok (.literal b, rest)

/-- Rule R291: ten levels, the start bit 0, eight data bits b[0] first, the stop bit 1. -/
def decodeChar (w : Word16) : Except DecodeError Instr :=
  if w.extractLsb' 10 6 ≠ 0#6 then .error .charPadding
  else if w.getLsbD 9 then .error .noStartBit
  else if w.getLsbD 0 then .ok (.char (lsbFirst (w.extractLsb' 1 8)))
  else .error .stopBitZero

/-- The decoder, total on any bytes: the first instruction of format f and the bytes after it. -/
def decode (f : Format) (bs : List Byte) : Except DecodeError (Instr × List Byte) :=
  match f, bs with
  | .cmd, d :: rest => .ok (decodeCmd d, rest)
  | .bus, hi :: lo :: rest => (decodeBus hi lo).map (·, rest)
  | .req, c :: rest => (decodeReq c).map (·, rest)
  | .rsp, t :: rest => .ok (decodeRsp t, rest)
  | .sym, bs => decodeSym bs
  | .char, hi :: lo :: rest => (decodeChar (hi ++ lo)).map (·, rest)
  | _, _ => .error .truncated

/-! ### Encoding -/

/-- The format a row of the table belongs to. -/
def Instr.format : Instr → Format
  | .nop => .cmd
  | .read => .cmd
  | .write => .cmd
  | .cmdRsv03 => .cmd
  | .cmdRsv _ _ => .cmd
  | .rdCtrl => .bus
  | .wrCtrl _ => .bus
  | .rdCmd => .bus
  | .wrCmdNop => .bus
  | .wrCmdRead => .bus
  | .wrCmdWrite => .bus
  | .wrCmdRsv _ => .bus
  | .rdStatus => .bus
  | .wrStatus _ => .bus
  | .rdErrcode => .bus
  | .wrErrcode _ => .bus
  | .rdDest => .bus
  | .wrDest _ => .bus
  | .rdSrc => .bus
  | .wrSrc _ => .bus
  | .rdReg => .bus
  | .wrReg _ => .bus
  | .rdTxLen => .bus
  | .wrTxLen _ => .bus
  | .rdToLimitHi => .bus
  | .wrToLimitHi _ => .bus
  | .rdToLimitLo => .bus
  | .wrToLimitLo _ => .bus
  | .rdRxBlen => .bus
  | .wrRxBlen _ => .bus
  | .rdTxCrcHi => .bus
  | .wrTxCrcHi _ => .bus
  | .rdTxCrcLo => .bus
  | .wrTxCrcLo _ => .bus
  | .rdRxResHi => .bus
  | .wrRxResHi _ => .bus
  | .rdRxResLo => .bus
  | .wrRxResLo _ => .bus
  | .rdRxInfo => .bus
  | .wrRxInfo _ => .bus
  | .rdCrcAccHi => .bus
  | .wrCrcAccHi _ => .bus
  | .rdCrcAccLo => .bus
  | .wrCrcAccLo _ => .bus
  | .rdCrcIn => .bus
  | .wrCrcIn _ => .bus
  | .rdRsv13 => .bus
  | .wrRsv13 _ => .bus
  | .rdRsv14 => .bus
  | .wrRsv14 _ => .bus
  | .rdRsv15 => .bus
  | .wrRsv15 _ => .bus
  | .rdRsv16 => .bus
  | .wrRsv16 _ => .bus
  | .rdRsv17 => .bus
  | .wrRsv17 _ => .bus
  | .rdRsv18 => .bus
  | .wrRsv18 _ => .bus
  | .rdRsv19 => .bus
  | .wrRsv19 _ => .bus
  | .rdRsv1A => .bus
  | .wrRsv1A _ => .bus
  | .rdRsv1B => .bus
  | .wrRsv1B _ => .bus
  | .rdRsv1C => .bus
  | .wrRsv1C _ => .bus
  | .rdRsv1D => .bus
  | .wrRsv1D _ => .bus
  | .rdRsv1E => .bus
  | .wrRsv1E _ => .bus
  | .rdRsv1F => .bus
  | .wrRsv1F _ => .bus
  | .rdTxbuf _ => .bus
  | .wrTxbuf _ _ => .bus
  | .rdRxbuf _ => .bus
  | .wrRxbuf _ _ => .bus
  | .reqRead => .req
  | .reqWrite => .req
  | .rspNotUnderstood => .rsp
  | .rspCrcError => .rsp
  | .rspBusy => .rsp
  | .rspWriteAck => .rsp
  | .rspReadAck => .rsp
  | .rspReserved _ => .rsp
  | .symStart => .sym
  | .symEnd => .sym
  | .esc0A => .sym
  | .esc0D => .sym
  | .esc5E => .sym
  | .escNoncanon _ => .sym
  | .literal _ => .sym
  | .char _ => .char

/-- The encoder: the bytes of an instruction in its format, from the table's match values. -/
def encode : Instr → List Byte
  | .nop => [0x00]
  | .read => [0x01]
  | .write => [0x02]
  | .cmdRsv03 => [0x03]
  | .cmdRsv op rsv => [rsv ++ op]
  | .rdCtrl => busBytes false 0x00 0x00
  | .wrCtrl d => busBytes true 0x00 d
  | .rdCmd => busBytes false 0x01 0x00
  | .wrCmdNop => busBytes true 0x01 0x00
  | .wrCmdRead => busBytes true 0x01 0x01
  | .wrCmdWrite => busBytes true 0x01 0x02
  | .wrCmdRsv d => busBytes true 0x01 d
  | .rdStatus => busBytes false 0x02 0x00
  | .wrStatus d => busBytes true 0x02 d
  | .rdErrcode => busBytes false 0x03 0x00
  | .wrErrcode d => busBytes true 0x03 d
  | .rdDest => busBytes false 0x04 0x00
  | .wrDest d => busBytes true 0x04 d
  | .rdSrc => busBytes false 0x05 0x00
  | .wrSrc d => busBytes true 0x05 d
  | .rdReg => busBytes false 0x06 0x00
  | .wrReg d => busBytes true 0x06 d
  | .rdTxLen => busBytes false 0x07 0x00
  | .wrTxLen d => busBytes true 0x07 d
  | .rdToLimitHi => busBytes false 0x0D 0x00
  | .wrToLimitHi d => busBytes true 0x0D d
  | .rdToLimitLo => busBytes false 0x0E 0x00
  | .wrToLimitLo d => busBytes true 0x0E d
  | .rdRxBlen => busBytes false 0x08 0x00
  | .wrRxBlen d => busBytes true 0x08 d
  | .rdTxCrcHi => busBytes false 0x09 0x00
  | .wrTxCrcHi d => busBytes true 0x09 d
  | .rdTxCrcLo => busBytes false 0x0A 0x00
  | .wrTxCrcLo d => busBytes true 0x0A d
  | .rdRxResHi => busBytes false 0x0B 0x00
  | .wrRxResHi d => busBytes true 0x0B d
  | .rdRxResLo => busBytes false 0x0C 0x00
  | .wrRxResLo d => busBytes true 0x0C d
  | .rdRxInfo => busBytes false 0x12 0x00
  | .wrRxInfo d => busBytes true 0x12 d
  | .rdCrcAccHi => busBytes false 0x0F 0x00
  | .wrCrcAccHi d => busBytes true 0x0F d
  | .rdCrcAccLo => busBytes false 0x10 0x00
  | .wrCrcAccLo d => busBytes true 0x10 d
  | .rdCrcIn => busBytes false 0x11 0x00
  | .wrCrcIn d => busBytes true 0x11 d
  | .rdRsv13 => busBytes false 0x13 0x00
  | .wrRsv13 d => busBytes true 0x13 d
  | .rdRsv14 => busBytes false 0x14 0x00
  | .wrRsv14 d => busBytes true 0x14 d
  | .rdRsv15 => busBytes false 0x15 0x00
  | .wrRsv15 d => busBytes true 0x15 d
  | .rdRsv16 => busBytes false 0x16 0x00
  | .wrRsv16 d => busBytes true 0x16 d
  | .rdRsv17 => busBytes false 0x17 0x00
  | .wrRsv17 d => busBytes true 0x17 d
  | .rdRsv18 => busBytes false 0x18 0x00
  | .wrRsv18 d => busBytes true 0x18 d
  | .rdRsv19 => busBytes false 0x19 0x00
  | .wrRsv19 d => busBytes true 0x19 d
  | .rdRsv1A => busBytes false 0x1A 0x00
  | .wrRsv1A d => busBytes true 0x1A d
  | .rdRsv1B => busBytes false 0x1B 0x00
  | .wrRsv1B d => busBytes true 0x1B d
  | .rdRsv1C => busBytes false 0x1C 0x00
  | .wrRsv1C d => busBytes true 0x1C d
  | .rdRsv1D => busBytes false 0x1D 0x00
  | .wrRsv1D d => busBytes true 0x1D d
  | .rdRsv1E => busBytes false 0x1E 0x00
  | .wrRsv1E d => busBytes true 0x1E d
  | .rdRsv1F => busBytes false 0x1F 0x00
  | .wrRsv1F d => busBytes true 0x1F d
  | .rdTxbuf i => busBytes false (txbufAddr i) 0x00
  | .wrTxbuf i d => busBytes true (txbufAddr i) d
  | .rdRxbuf i => busBytes false (rxbufAddr i) 0x00
  | .wrRxbuf i d => busBytes true (rxbufAddr i) d
  | .reqRead => [0x04]
  | .reqWrite => [0x05]
  | .rspNotUnderstood => [0x00]
  | .rspCrcError => [0x01]
  | .rspBusy => [0x02]
  | .rspWriteAck => [0x03]
  | .rspReadAck => [0x08]
  | .rspReserved t => [t]
  | .symStart => [0x0D]
  | .symEnd => [0x0A]
  | .esc0A => [0x5E, 0x4A]
  | .esc0D => [0x5E, 0x4D]
  | .esc5E => [0x5E, 0x9E]
  | .escNoncanon y => [0x5E, y]
  | .literal b => [b]
  | .char b => charBytes b

/-! ### Words as the table numbers them -/

/-- The format a word of the table is read in when the word alone is given (notes/assumptions/16):
an 8-bit word is the row that fixes all its bits, the first such row of the table, and a CMD byte
otherwise; a 16-bit word whose first byte is 0x5E is a symbol, one with the ten levels of a character
is a character, any other a BUS word. -/
def tableFormat (nbits w : Nat) : Format :=
  if nbits = 8 then
    match w with
    | 0x04 => .req
    | 0x05 => .req
    | 0x08 => .rsp
    | 0x0A => .sym
    | 0x0D => .sym
    | _ => .cmd
  else if w / 256 = 0x5E then .sym
  else if w / 512 = 0 ∧ w % 2 = 1 then .char
  else .bus

/-- The bytes of a table word, its first byte first. -/
def tableBytes (nbits w : Nat) : List Byte :=
  if nbits = 8 then [BitVec.ofNat 8 w] else [BitVec.ofNat 8 (w / 256), BitVec.ofNat 8 w]

/-- The instruction the decoder reads from a word of the table: all its bytes and no more. -/
def decodeTableWord (nbits w : Nat) : Option Instr :=
  if (nbits = 8 ∨ nbits = 16) ∧ w < 2 ^ nbits then
    match decode (tableFormat nbits w) (tableBytes nbits w) with
    | .ok (i, []) => some i
    | _ => none
  else none

end Sys2Proof
end

