-- ==== Sys2Proof/Machine/Codec.lean ====
section
/-!
DEFINITION. The pure functions of the codec: the byte-stuffing encoder and decoder
(spec/40_escape.md), the CRC-16 generator (spec/41_crc.md), telegram bodies and frames
(spec/30_encoding.md rules R104 and R109), byte order (spec/20_memory.md rules R82 and R83).
-/

namespace Sys2Proof.Machine

/-! ### Delimiters and byte order -/

/-- START, rule R110. -/
def startByte : Byte := 0x0D

/-- END, rule R110. -/
def endByte : Byte := 0x0A

/-- ESC, rule R110. -/
def escByteMark : Byte := 0x5E

/-- Bits 15:8 of a 16-bit value, rule R7. -/
def hiByte (c : Word16) : Byte := c.extractLsb' 8 8

/-- Bits 7:0 of a 16-bit value, rule R7. -/
def loByte (c : Word16) : Byte := c.setWidth 8

/-- The 16-bit value of a pair, rule R83: HI × 256 + LO. -/
def pair (hi lo : Byte) : Word16 := hi ++ lo

/-- A CRC as two bytes, big-endian, rule R82. -/
def crcTrailer (c : Word16) : List Byte := [hiByte c, loByte c]

/-! ### Escaping -/

/-- `is_reserved`, rule R140. -/
def isReserved (b : Byte) : Bool := b == 0x0A || b == 0x0D || b == 0x5E

/-- `esc_byte`, rules R140 and R141. -/
def escByte (b : Byte) : List Byte := if isReserved b then [escByteMark, b + 0x40] else [b]

/-- `escape`, rule R142. -/
def escape (s : List Byte) : List Byte := s.flatMap escByte

/-- `unescape_step`, rule R143: the decoder state and one input byte give the next state and at most
one byte. -/
def unescapeStep (e : Bool) (y : Byte) : Bool × Option Byte :=
  match e with
  | true => (false, some (y - 0x40))
  | false => if y = escByteMark then (true, none) else (false, some y)

/-- The loop of rule R144 from decoder state e: the decoded bytes and the state at the end. -/
def unescapeFrom : Bool → List Byte → List Byte × Bool
  | e, [] => ([], e)
  | e, y :: t =>
    let r := unescapeStep e y
    let o := unescapeFrom r.1 t
    (r.2.toList ++ o.1, o.2)

/-- `unescape`, rule R144: the decoded bytes, and whether an ESC was left without its second byte. -/
def unescape (t : List Byte) : List Byte × Bool := unescapeFrom false t

/-! ### CRC -/

/-- CRC_POLY, rules R6 and R170. -/
def crcPoly : Word16 := 0x1021

/-- CRC_INIT, rules R6 and R170. -/
def crcInit : Word16 := 0x0000

/-- One bit of rule R171's loop. -/
def crcShift (c : Word16) : Word16 := if c.msb then (c <<< 1) ^^^ crcPoly else c <<< 1

/-- n bits of rule R171's loop. -/
def crcShifts : Nat → Word16 → Word16
  | 0, c => c
  | n + 1, c => crcShifts n (crcShift c)

/-- `crc_upd`, rule R171. -/
def crcUpd (c : Word16) (b : Byte) : Word16 := crcShifts 8 (c ^^^ (b.setWidth 16 <<< 8))

/-- `crc16`, rule R172. -/
def crc16 (s : List Byte) : Word16 := s.foldl crcUpd crcInit

/-! ### Telegrams -/

/-- The telegram command code of a command, rule R105. -/
def telegramCode : Op → Byte
  | .read => 0x04
  | .write => 0x05

/-- The request body without its CRC, rule R104. -/
def requestHead (dest src code reg : Byte) (payload : List Byte) : List Byte :=
  [dest, src, code, reg] ++ payload

/-- A request body, rule R104: the head and its CRC, big-endian. -/
def requestBody (dest src code reg : Byte) (payload : List Byte) : List Byte :=
  let head := requestHead dest src code reg payload
  head ++ crcTrailer (crc16 head)

/-- `frame`, rule R109. -/
def frame (body : List Byte) : List Byte := [startByte] ++ escape body ++ [endByte]

/-- The level of bit period k (0 to 9) of a character carrying b, rule R291. -/
def charLevel (b : Byte) (k : Nat) : Bool := (charWord b).getLsbD (9 - k)

end Sys2Proof.Machine
end

