-- ==== Sys2Proof/Machine/State.lean ====
section
/-!
DEFINITION. The state of the STC, spec/10_state.md rules R30 to R57, the events the outside world
lines up for it, the reasons a step can stop, and the state after reset
(spec/70_reset_and_hazards.md rule R380).
-/

namespace Sys2Proof.Machine

/-- `st.phase`, rule R50. The codes 5 to 7 do not exist, so no constructor has them. -/
inductive Phase where
  | idle
  | framing
  | awaitStart
  | recvBody
  | validating
  deriving DecidableEq, Repr

/-- The error codes of rule R340, in the order of their numbers. -/
inductive ErrCode where
  | none
  | srcRange
  | timeoutStart
  | timeoutEnd
  | overflow
  | danglingEsc
  | shortFrame
  | crcMismatch
  | devNotUnderstood
  | devCrcError
  | devBusy
  | unexpectedType
  deriving DecidableEq, Repr

/-- The events of one clock cycle, rule R351. UTX is not in that rule's list
(notes/assumptions/6). -/
structure Cycle where
  rst : Bool
  line : Option LineEvent
  tick : Bool
  seq : Bool
  host : Option Access
  deriving DecidableEq, Repr

/-- What the outside world has lined up, one entry of the agenda (notes/assumptions/5): encoded bytes
of a format (the next instruction is read from their front), a move of one agent, or the events of
one clock cycle. -/
inductive Event where
  | coded (f : Format) (bytes : List Byte)
  | move (m : Move)
  | cycle (c : Cycle)
  deriving DecidableEq, Repr

/-- Bytes by host address: the two buffers, TXBUF at 0x20 + i (rule R49) and RXBUF at 0x40 + i
(rule R57). Addresses strictly rise and no entry holds what an unlisted address reads as. -/
abbrev Memory := List Host.Cell

/-- The state of the STC. Every field but the last five is the spec's, under the name the rule in its
comment gives it; STATUS.BUSY, STATUS.PHASE, obs.irq and the pin uart_tx are functions of these
fields (rules R35, R355, R290). -/
structure State where
  /-- CTRL, rule R33. -/
  ctrl : Byte
  /-- STATUS.DONE, rule R35. -/
  done : Bool
  /-- STATUS.ERR, rule R35. -/
  err : Bool
  /-- STATUS.REJ, rule R35. -/
  rej : Bool
  /-- STATUS.LINE_ERR, rule R35. -/
  lineErr : Bool
  /-- ERRCODE, rule R36. -/
  errcode : Byte
  /-- DEST, rule R37. -/
  dest : Byte
  /-- SRC, rule R38. -/
  src : Byte
  /-- REG, rule R39. -/
  reg : Byte
  /-- TX_LEN, rule R40. -/
  txLen : Byte
  /-- RX_BLEN, rule R41. -/
  rxBlen : Byte
  /-- TX_CRC_HI and TX_CRC_LO, rule R42. -/
  txCrc : Word16
  /-- RX_RES_HI and RX_RES_LO, rule R43. -/
  rxRes : Word16
  /-- TO_LIMIT_HI and TO_LIMIT_LO, rule R44. -/
  toLimit : Word16
  /-- CRC_ACC_HI and CRC_ACC_LO, rule R45. -/
  crcAcc : Word16
  /-- RX_INFO, rule R47. -/
  rxInfo : Byte
  /-- TXBUF and RXBUF, rules R49 and R57. -/
  mem : Memory
  /-- `st.phase`, rule R50. -/
  phase : Phase
  /-- `st.op`, rule R51. -/
  op : Op
  /-- `st.tx_frame`, rule R51. -/
  txFrame : List Byte
  /-- `st.tx_idx`, rule R51. -/
  txIdx : Nat
  /-- `st.rx_esc`, rule R52. -/
  rxEsc : Bool
  /-- `st.rx_cnt`, rule R52. -/
  rxCnt : Nat
  /-- `st.rx_crc`, rule R52. -/
  rxCrc : Word16
  /-- `st.to_cnt`, rule R53. -/
  toCnt : Word16
  /-- `st.utx_busy`, rule R54. -/
  utxBusy : Bool
  /-- `st.utx_byte`, rule R54. -/
  utxByte : Byte
  /-- `obs.wire_out`, rule R55. -/
  wireOut : List Byte
  /-- The values host reads returned, in order (rule R55, notes/assumptions/8). -/
  busReplies : List Byte
  /-- The buffer depths P_TXBUF and P_RXBUF of rule R6 (notes/assumptions/18). -/
  cfg : Config.Params
  /-- The model's own: the events lined up (notes/assumptions/5). -/
  agenda : List Event
  /-- The model's own: the counter the free values are applied to (notes/assumptions/5). -/
  fresh : Nat
  deriving DecidableEq, Repr

/-- A step that stops because the state gives it nothing to do next. -/
inductive Fault where
  /-- Raised by TX_EMIT when `st.tx_idx` is no index of `st.tx_frame`, where rule R8 leaves
  `st.tx_frame[st.tx_idx]` undefined. No run reaches it. Safe: the model stops. -/
  | txIndexOutsideFrame
  deriving DecidableEq, Repr

/-- A step that is refused because what the agenda presents is no instruction. -/
inductive Refusal where
  /-- Raised by an arm of exec whose instruction has no meaning yet. Safe: the model stops. -/
  | notModelled (mnemonic : String)
  /-- Raised by the fetch: the bytes presented are no encoding of their format, for the reason given.
  Safe: the model stops. -/
  | undecodable (f : Format) (e : DecodeError)
  /-- Raised by the fetch: a response type is read from RXBUF[2] (rule R254), never presented from
  outside. Safe: the model stops. -/
  | responseFromOutside
  deriving DecidableEq, Repr

/-- The outcome of one step. -/
abbrev Result := Host.Outcome State Fault Refusal

/-- The state after reset, for buffer depths p: the table of rule R380, and for the values it leaves
unspecified (TXBUF, RXBUF, st.op, st.utx_byte) the named values of notes/assumptions/1 to 3. -/
def State.resetWith (p : Config.Params) : State where
  ctrl := 0x00
  done := false
  err := false
  rej := false
  lineErr := false
  errcode := 0x00
  dest := Config.destDefault
  src := 0xA1
  reg := 0x00
  txLen := 0x00
  rxBlen := 0x00
  txCrc := 0x0000
  rxRes := 0x0000
  toLimit := 0xFFFF
  crcAcc := 0x0000
  rxInfo := 0x00
  mem := []
  phase := .idle
  op := .read
  txFrame := []
  txIdx := 0
  rxEsc := false
  rxCnt := 0
  rxCrc := 0x0000
  toCnt := 0x0000
  utxBusy := false
  utxByte := 0x00
  wireOut := []
  busReplies := []
  cfg := p
  agenda := []
  fresh := 0

/-- The machine right after reset, with the default buffer depths of rule R6. -/
def State.reset : State := State.resetWith Config.Params.default

end Sys2Proof.Machine
end

