-- ==== Sys2Proof/Machine/Flags.lean ====
section
/-!
DEFINITION. Status bits and codes: the codes of phases (spec/10_state.md rule R50) and errors
(spec/60_exceptions.md rule R340), STATUS (rule R35), RX_INFO (rule R256), the classification of
responses (rule R254), the interrupt (rule R355) and the transmit pin (rules R290 and R291).
-/

namespace Sys2Proof.Machine

/-- The code of `st.phase`, rule R50. -/
def Phase.code : Phase → BitVec 3
  | .idle => 0
  | .framing => 1
  | .awaitStart => 2
  | .recvBody => 3
  | .validating => 4

/-- The number of an error code, rule R340. -/
def ErrCode.toByte : ErrCode → Byte
  | .none => 0x00
  | .srcRange => 0x01
  | .timeoutStart => 0x02
  | .timeoutEnd => 0x03
  | .overflow => 0x04
  | .danglingEsc => 0x05
  | .shortFrame => 0x06
  | .crcMismatch => 0x07
  | .devNotUnderstood => 0x08
  | .devCrcError => 0x09
  | .devBusy => 0x0A
  | .unexpectedType => 0x0B

/-- STATUS.BUSY, rule R35. -/
def State.busy (s : State) : Bool := decide (s.phase ≠ .idle)

/-- The byte a read of STATUS returns, rules R35 and R310. -/
def State.statusByte (s : State) : Byte :=
  s.phase.code ++ BitVec.ofBool s.lineErr ++ BitVec.ofBool s.rej ++ BitVec.ofBool s.err
    ++ BitVec.ofBool s.done ++ BitVec.ofBool s.busy

/-- CTRL.IE_DONE, rule R33. -/
def State.ieDone (s : State) : Bool := s.ctrl.getLsbD 0

/-- CTRL.IE_ERR, rule R33. -/
def State.ieErr (s : State) : Bool := s.ctrl.getLsbD 1

/-- `obs.irq`, rule R355. -/
def State.irq (s : State) : Bool := (s.done && s.ieDone) || (s.err && s.ieErr)

/-- The value CTRL keeps of a byte written, rule R314. -/
def ctrlKept (d : Byte) : Byte := d &&& 0x03

/-- A sticky flag after a write of d to STATUS whose bit k selects it, rule R315. -/
def w1c (flag : Bool) (d : Byte) (k : Nat) : Bool := flag && !d.getLsbD k

/-- RX_INFO from the three comparisons, rule R256, with HDR_VALID. -/
def rxInfoByte (dstMatch srcMatch regMatch : Bool) : Byte :=
  0#4 ++ 1#1 ++ BitVec.ofBool regMatch ++ BitVec.ofBool srcMatch ++ BitVec.ofBool dstMatch

/-- `classify`, rule R254. -/
def classify (op : Op) (t : Byte) : ErrCode :=
  if op = .read ∧ t = 0x08 then .none
  else if op = .write ∧ t = 0x03 then .none
  else if t = 0x00 then .devNotUnderstood
  else if t = 0x01 then .devCrcError
  else if t = 0x02 then .devBusy
  else .unexpectedType

/-- The level of the pin uart_tx in bit period k of the character being sent, and the idle level 1
when none is (rules R290, R291 and R293). -/
def State.uartTx (s : State) (k : Nat) : Bool := if s.utxBusy then charLevel s.utxByte k else true

end Sys2Proof.Machine
end

