-- ==== Sys2Proof/Machine/Memory.lean ====
section
/-!
DEFINITION. The bytes of the two buffers: reading one, writing one, and the canonical form of the list
(addresses strictly rising, no entry equal to what an unlisted address reads as).
-/

namespace Sys2Proof.Machine

/-- What a buffer byte nothing has written reads as (rules R49 and R57 leave it unspecified:
notes/assumptions/1, DESIGN CHOICE, unsafe). -/
def Memory.unlisted : Byte := 0x00

/-- The byte at an address. -/
def Memory.read : Memory → Nat → Byte
  | [], _ => Memory.unlisted
  | c :: m, a => if c.1 = a then c.2 else Memory.read m a

/-- The memory with byte v at address a, in canonical form. -/
def Memory.write : Memory → Nat → Byte → Memory
  | [], a, v => if v = Memory.unlisted then [] else [(a, v)]
  | c :: m, a, v =>
    if a < c.1 then (if v = Memory.unlisted then c :: m else (a, v) :: c :: m)
    else if c.1 = a then (if v = Memory.unlisted then m else (a, v) :: m)
    else c :: Memory.write m a v

/-- The canonical form. -/
def Memory.wf : Memory → Bool
  | [] => true
  | c :: m => decide (c.2 ≠ Memory.unlisted) && m.all (fun d => decide (c.1 < d.1)) && Memory.wf m

/-- n bytes written from address a on, the byte at index i being f i. -/
def Memory.fill (m : Memory) (a : Nat) (f : Nat → Byte) : Nat → Memory
  | 0 => m
  | n + 1 => (Memory.fill m a f n).write (a + n) (f n)

/-- Host address of TXBUF[0], rule R49. -/
def txbufBase : Nat := 0x20

/-- Host address of RXBUF[0], rule R57. -/
def rxbufBase : Nat := 0x40

/-- The buffers after the RST step taken at counter n: free values (rule R380, notes/assumptions/4). -/
def Memory.afterReset (p : Config.Params) (n : Nat) : Memory :=
  (Memory.fill (Memory.fill [] txbufBase (Config.resetTxbuf n) p.txbuf)
    rxbufBase (Config.resetRxbuf n) p.rxbuf)

end Sys2Proof.Machine
end

