-- ==== Sys2Proof/Machine/Operands.lean ====
section
/-!
DEFINITION. Where an operand is found: the bytes of the buffers (spec/10_state.md rules R49 and R57),
the payload and the frame of a request (spec/42_transport_tx.md rules R202 and R208), the byte a host
read returns (spec/45_host_bus.md rule R310), the fields of a response (spec/43_transport_rx.md rule
R256).
-/

namespace Sys2Proof.Machine

/-- TXBUF[i], and 0x00 at a reserved index (rules R49 and R310). -/
def State.txbufAt (s : State) (i : Nat) : Byte :=
  if i < s.cfg.txbuf then s.mem.read (txbufBase + i) else 0x00

/-- RXBUF[i], and 0x00 at a reserved index (rules R57 and R310). -/
def State.rxbufAt (s : State) (i : Nat) : Byte :=
  if i < s.cfg.rxbuf then s.mem.read (rxbufBase + i) else 0x00

/-- TXBUF[0..TX_LEN), rule R202. -/
def State.writePayload (s : State) : List Byte := (List.range s.txLen.toNat).map s.txbufAt

/-- RXBUF[0..n). -/
def State.rxBody (s : State) (n : Nat) : List Byte := (List.range n).map s.rxbufAt

/-- The payload of a command's request: none for READ (rule R201), TXBUF[0..TX_LEN) for WRITE. -/
def State.payload (s : State) : Op → List Byte
  | .read => []
  | .write => s.writePayload

/-- The value TX_LEN keeps of a byte written, rule R316. -/
def State.txLenKept (s : State) (d : Byte) : Byte := BitVec.ofNat 8 (min d.toNat s.cfg.txbuf)

/-- The byte at a host address, rule R310. -/
def State.hostByte (s : State) (a : HostAddr) : Byte :=
  match a.toNat with
  | 0x00 => s.ctrl
  | 0x01 => 0x00
  | 0x02 => s.statusByte
  | 0x03 => s.errcode
  | 0x04 => s.dest
  | 0x05 => s.src
  | 0x06 => s.reg
  | 0x07 => s.txLen
  | 0x08 => s.rxBlen
  | 0x09 => hiByte s.txCrc
  | 0x0A => loByte s.txCrc
  | 0x0B => hiByte s.rxRes
  | 0x0C => loByte s.rxRes
  | 0x0D => hiByte s.toLimit
  | 0x0E => loByte s.toLimit
  | 0x0F => hiByte s.crcAcc
  | 0x10 => loByte s.crcAcc
  | 0x11 => 0x00
  | 0x12 => s.rxInfo
  | n => if n < 0x20 then 0x00 else if n < 0x40 then s.txbufAt (n - 0x20) else s.rxbufAt (n - 0x40)

/-- `info()`, rule R256. -/
def State.info (s : State) : Byte :=
  rxInfoByte (s.rxbufAt 0 == s.src) (s.rxbufAt 1 == s.dest) (s.rxbufAt 3 == s.reg)

/-- TO_LIMIT reached by the count c, rule R361. -/
def State.expired (s : State) (c : Word16) : Bool := decide (s.toLimit.toNat ≤ c.toNat)

/-- The count of one more tick, saturating, rules R53 and R361. -/
def countUp (c : Word16) : Word16 := if c = 0xFFFF then 0xFFFF else c + 1

end Sys2Proof.Machine
end

