-- ==== Sys2Proof/Machine/Ops.lean ====
section
/-!
DEFINITION. The operations the meanings share: host register updates (spec/45_host_bus.md), completion
(spec/60_exceptions.md rule R345) and what undoes it, acceptance and framing (spec/42_transport_tx.md),
reception and validation (spec/43_transport_rx.md), the tick (rule R361), the UART (spec/44_uart.md)
and the RST step (spec/70_reset_and_hazards.md rule R380).
-/

namespace Sys2Proof.Machine

/-! ### Host accesses -/

/-- The bus replies with v; a read has no other effect (rules R88 and R310). -/
def State.pushReply (s : State) (v : Byte) : State := { s with busReplies := s.busReplies ++ [v] }

/-- Rejection, rules R203, R204 and R313: STATUS.REJ is set and nothing else changes. -/
def State.reject (s : State) : State := { s with rej := true }

/-- Rule R314. -/
def State.setCtrl (s : State) (d : Byte) : State := { s with ctrl := ctrlKept d }

/-- Rule R315: each of bits 1 to 4 of d clears its flag. With it the host takes back what Complete
set (rule R347: there is no return instruction). -/
def State.clearFlags (s : State) (d : Byte) : State :=
  { s with done := w1c s.done d 1, err := w1c s.err d 2, rej := w1c s.rej d 3,
           lineErr := w1c s.lineErr d 4 }

/-- Rule R316, address 0x04. -/
def State.setDest (s : State) (d : Byte) : State := { s with dest := d }

/-- Rule R316, address 0x05. -/
def State.setSrc (s : State) (d : Byte) : State := { s with src := d }

/-- Rule R316, address 0x06. -/
def State.setReg (s : State) (d : Byte) : State := { s with reg := d }

/-- Rule R316, address 0x07: min(d, P_TXBUF). -/
def State.setTxLen (s : State) (d : Byte) : State := { s with txLen := s.txLenKept d }

/-- Rule R316, address 0x0D. -/
def State.setToLimitHi (s : State) (d : Byte) : State :=
  { s with toLimit := pair d (loByte s.toLimit) }

/-- Rule R316, address 0x0E. -/
def State.setToLimitLo (s : State) (d : Byte) : State :=
  { s with toLimit := pair (hiByte s.toLimit) d }

/-- Rule R316: TXBUF[i] <- d. -/
def State.setTxbuf (s : State) (i : Nat) (d : Byte) : State :=
  { s with mem := s.mem.write (txbufBase + i) d }

/-- Rules R180 to R182: a new value of CRC_ACC. -/
def State.setCrcAcc (s : State) (c : Word16) : State := { s with crcAcc := c }

/-- A host read of address a, rule R310. -/
def hostRead (a : HostAddr) (s : State) : Result := .next (s.pushReply (s.hostByte a))

/-- A write to a read-only or reserved address, rule R312: ignored, with no flag. -/
def ignoreWrite (s : State) : Result := .next s

/-- A write to an operand register: rule R316 while IDLE, rule R313 while BUSY. -/
def operandWrite (update : State → State) (s : State) : Result :=
  if s.phase = .idle then .next (update s) else .next s.reject

/-! ### Completion: what takes the place of an exception -/

/-- `Complete(code)`, rule R345. -/
def State.complete (s : State) (c : ErrCode) : State :=
  { s with errcode := c.toByte, done := true, err := decide (c ≠ .none), phase := .idle }

/-! ### Acceptance and framing -/

/-- `accept(op)`, rule R207: it clears the flags and results of the transaction before. -/
def State.accept (s : State) (op : Op) : State :=
  { s with done := false, err := false, errcode := 0x00, rxBlen := 0x00, rxRes := 0x0000,
           rxInfo := 0x00, op := op, rxEsc := false, rxCnt := 0, rxCrc := 0x0000, toCnt := 0x0000 }

/-- `start_frame(code, payload)`, rule R208. -/
def State.startFrame (s : State) (code : Byte) (payload : List Byte) : State :=
  { s with txCrc := crc16 (requestHead s.dest s.src code s.reg payload),
           txFrame := frame (requestBody s.dest s.src code s.reg payload),
           txIdx := 0, phase := .framing }

/-- The commands READ and WRITE, rules R201 and R202: rejected while BUSY (R203), completed at once
with SRC_RANGE when SRC is out of range (R206), framed otherwise. -/
def State.issue (s : State) (op : Op) : State :=
  if s.phase ≠ .idle then s.reject
  else if s.src.toNat < Config.srcMin.toNat then (s.accept op).complete .srcRange
  else (s.accept op).startFrame (telegramCode op) (s.payload op)

/-! ### Transmission -/

/-- `LineSend(b)`, rule R293. -/
def State.lineSend (s : State) (b : Byte) : State := { s with utxByte := b, utxBusy := true }

/-- `st.tx_idx` after a byte is handed over, rule R210: after the last byte the hunt begins and timeout
window 1 opens. -/
def State.advanceTx (s : State) : State :=
  if s.txIdx + 1 = s.txFrame.length then
    { s with txIdx := s.txIdx + 1, phase := .awaitStart, toCnt := 0x0000 }
  else { s with txIdx := s.txIdx + 1 }

/-- TX_EMIT, rule R210, in a state in which it is enabled. -/
def txEmit (s : State) : Result :=
  match s.txFrame[s.txIdx]? with
  | some b => .next (s.lineSend b).advanceTx
  | none => .fault .txIndexOutsideFrame

/-- UTX_DONE, rule R294, in a state in which it is enabled. -/
def State.utxDone (s : State) : State :=
  { s with wireOut := s.wireOut ++ [s.utxByte], utxBusy := false }

/-! ### Reception -/

/-- LINE_FRAMING_ERROR, rule R296. -/
def State.framingError (s : State) : State := { s with lineErr := true }

/-- The START that ends the hunt, rule R241: the body begins and timeout window 2 opens. -/
def State.openBody (s : State) : State :=
  { s with phase := .recvBody, rxEsc := false, rxCnt := 0, rxCrc := 0x0000, toCnt := 0x0000 }

/-- END, rule R242. -/
def State.endBody (s : State) : State := { s with phase := .validating }

/-- `store(d)`, rule R245. -/
def State.store (s : State) (d : Byte) : State :=
  { s with mem := if s.rxCnt < s.cfg.rxbuf then s.mem.write (rxbufBase + s.rxCnt) d else s.mem,
           rxCrc := crcUpd s.rxCrc d,
           rxCnt := min (s.rxCnt + 1) (s.cfg.rxbuf + 1) }

/-- A new value of `st.rx_esc`, rule R244. -/
def State.setRxEsc (s : State) (e : Bool) : State := { s with rxEsc := e }

/-- BODY_BYTE, rule R244. -/
def State.bodyByte (s : State) (b : Byte) : State :=
  match unescapeStep s.rxEsc b with
  | (e, some d) => (s.setRxEsc e).store d
  | (e, none) => s.setRxEsc e

/-- RX_BYTE, rule R240: `LineRecv(b)`. -/
def State.lineRecv (s : State) (b : Byte) : State :=
  match s.phase with
  | .idle => s
  | .framing => s
  | .validating => s
  | .awaitStart => if b = startByte then s.openBody else s
  | .recvBody => if b = endByte then s.endBody else s.bodyByte b

/-- Bytes delivered one after the other. -/
def State.lineRecvAll (s : State) (bs : List Byte) : State := bs.foldl State.lineRecv s

/-! ### Validation -/

/-- The result registers validation always writes, rule R250. -/
def State.publish (s : State) : State :=
  { s with rxBlen := BitVec.ofNat 8 (min s.rxCnt s.cfg.rxbuf), rxRes := s.rxCrc }

/-- RX_INFO, rules R250 and R256. -/
def State.setRxInfo (s : State) (v : Byte) : State := { s with rxInfo := v }

/-- VALIDATE, rule R250, with t the response type RXBUF[2]: the checks in the order of rule R350. -/
def State.validate (s : State) (t : Byte) : State :=
  if s.rxEsc then s.publish.complete .danglingEsc
  else if s.cfg.rxbuf < s.rxCnt then s.publish.complete .overflow
  else if s.rxCnt < 6 then s.publish.complete .shortFrame
  else if s.rxCrc ≠ 0x0000 then s.publish.complete .crcMismatch
  else (s.publish.setRxInfo s.info).complete (classify s.op t)

/-- A response of type t: VALIDATE where it is enabled, nothing in another phase
(notes/assumptions/11). -/
def State.response (s : State) (t : Byte) : State :=
  if s.phase = .validating then s.validate t else s

/-! ### Timeout -/

/-- A new value of `st.to_cnt`, rule R361. -/
def State.setToCnt (s : State) (c : Word16) : State := { s with toCnt := c }

/-- The tick of a delimiter wait, rule R361, with the code the wait ends with. -/
def State.countTick (s : State) (c : ErrCode) : State :=
  if s.expired (countUp s.toCnt) then (s.setToCnt (countUp s.toCnt)).complete c
  else s.setToCnt (countUp s.toCnt)

/-- TICK, rule R361. -/
def State.tick (s : State) : State :=
  match s.phase with
  | .awaitStart => s.countTick .timeoutStart
  | .recvBody => s.countTick .timeoutEnd
  | .idle => s
  | .framing => s
  | .validating => s

/-! ### Reset -/

/-- RESET, rule R380: the reset state of the same STC, with free values where the rule leaves a value
unspecified. The histories and what the outside world has lined up are no state of the STC. -/
def State.powerReset (s : State) : State :=
  { State.resetWith s.cfg with
    mem := Memory.afterReset s.cfg s.fresh, op := Config.resetOp s.fresh,
    utxByte := Config.resetUtxByte s.fresh, wireOut := s.wireOut, busReplies := s.busReplies,
    agenda := s.agenda, fresh := s.fresh + 1 }

end Sys2Proof.Machine
end

