-- ==== Sys2Proof/Machine/BusRead.lean ====
section
/-!
DEFINITION. The RD rows of the opcode table: host reads (spec/45_host_bus.md rule R310,
spec/41_crc.md rule R183, spec/42_transport_tx.md rule R205).
-/

namespace Sys2Proof.Machine

/-- RD_CTRL: rule R310. -/
def execRdCtrl (s : State) : Result :=
  hostRead 0x00 s

/-- RD_CMD: rule R205. -/
def execRdCmd (s : State) : Result :=
  hostRead 0x01 s

/-- RD_STATUS: rule R310. -/
def execRdStatus (s : State) : Result :=
  hostRead 0x02 s

/-- RD_ERRCODE: rule R310. -/
def execRdErrcode (s : State) : Result :=
  hostRead 0x03 s

/-- RD_DEST: rule R310. -/
def execRdDest (s : State) : Result :=
  hostRead 0x04 s

/-- RD_SRC: rule R310. -/
def execRdSrc (s : State) : Result :=
  hostRead 0x05 s

/-- RD_REG: rule R310. -/
def execRdReg (s : State) : Result :=
  hostRead 0x06 s

/-- RD_TX_LEN: rule R310. -/
def execRdTxLen (s : State) : Result :=
  hostRead 0x07 s

/-- RD_TO_LIMIT_HI: rule R310. -/
def execRdToLimitHi (s : State) : Result :=
  hostRead 0x0D s

/-- RD_TO_LIMIT_LO: rule R310. -/
def execRdToLimitLo (s : State) : Result :=
  hostRead 0x0E s

/-- RD_RX_BLEN: rule R310. -/
def execRdRxBlen (s : State) : Result :=
  hostRead 0x08 s

/-- RD_TX_CRC_HI: rule R310. -/
def execRdTxCrcHi (s : State) : Result :=
  hostRead 0x09 s

/-- RD_TX_CRC_LO: rule R310. -/
def execRdTxCrcLo (s : State) : Result :=
  hostRead 0x0A s

/-- RD_RX_RES_HI: rule R310. -/
def execRdRxResHi (s : State) : Result :=
  hostRead 0x0B s

/-- RD_RX_RES_LO: rule R310. -/
def execRdRxResLo (s : State) : Result :=
  hostRead 0x0C s

/-- RD_RX_INFO: rule R310. -/
def execRdRxInfo (s : State) : Result :=
  hostRead 0x12 s

/-- RD_CRC_ACC_HI: rule R183. -/
def execRdCrcAccHi (s : State) : Result :=
  hostRead 0x0F s

/-- RD_CRC_ACC_LO: rule R183. -/
def execRdCrcAccLo (s : State) : Result :=
  hostRead 0x10 s

/-- RD_CRC_IN: rule R183. -/
def execRdCrcIn (s : State) : Result :=
  hostRead 0x11 s

/-- RD_RSV_13: rules R310 and R48, reads 0x00. -/
def execRdRsv13 (s : State) : Result :=
  hostRead 0x13 s

/-- RD_RSV_14: rules R310 and R48, reads 0x00. -/
def execRdRsv14 (s : State) : Result :=
  hostRead 0x14 s

/-- RD_RSV_15: rules R310 and R48, reads 0x00. -/
def execRdRsv15 (s : State) : Result :=
  hostRead 0x15 s

/-- RD_RSV_16: rules R310 and R48, reads 0x00. -/
def execRdRsv16 (s : State) : Result :=
  hostRead 0x16 s

/-- RD_RSV_17: rules R310 and R48, reads 0x00. -/
def execRdRsv17 (s : State) : Result :=
  hostRead 0x17 s

/-- RD_RSV_18: rules R310 and R48, reads 0x00. -/
def execRdRsv18 (s : State) : Result :=
  hostRead 0x18 s

/-- RD_RSV_19: rules R310 and R48, reads 0x00. -/
def execRdRsv19 (s : State) : Result :=
  hostRead 0x19 s

/-- RD_RSV_1A: rules R310 and R48, reads 0x00. -/
def execRdRsv1A (s : State) : Result :=
  hostRead 0x1A s

/-- RD_RSV_1B: rules R310 and R48, reads 0x00. -/
def execRdRsv1B (s : State) : Result :=
  hostRead 0x1B s

/-- RD_RSV_1C: rules R310 and R48, reads 0x00. -/
def execRdRsv1C (s : State) : Result :=
  hostRead 0x1C s

/-- RD_RSV_1D: rules R310 and R48, reads 0x00. -/
def execRdRsv1D (s : State) : Result :=
  hostRead 0x1D s

/-- RD_RSV_1E: rules R310 and R48, reads 0x00. -/
def execRdRsv1E (s : State) : Result :=
  hostRead 0x1E s

/-- RD_RSV_1F: rules R310 and R48, reads 0x00. -/
def execRdRsv1F (s : State) : Result :=
  hostRead 0x1F s

/-- RD_TXBUF: rule R310, TXBUF[i]. -/
def execRdTxbuf (i : BitVec 5) (s : State) : Result :=
  hostRead (txbufAddr i) s

/-- RD_RXBUF: rule R310, RXBUF[i]. -/
def execRdRxbuf (i : BitVec 6) (s : State) : Result :=
  hostRead (rxbufAddr i) s

end Sys2Proof.Machine
end

