-- ==== Sys2Proof/Machine/BusWrite.lean ====
section
/-!
DEFINITION. The WR rows of the opcode table: host writes (spec/45_host_bus.md rules R311 to R316,
spec/41_crc.md rules R180 to R182, spec/42_transport_tx.md rules R200 to R204).
-/

namespace Sys2Proof.Machine

/-- WR_CTRL: rule R314. -/
def execWrCtrl (d : Byte) (s : State) : Result :=
  .next (s.setCtrl d)

/-- WR_CMD_NOP: rule R200. -/
def execWrCmdNop (s : State) : Result :=
  .next s

/-- WR_CMD_READ: rule R201. -/
def execWrCmdRead (s : State) : Result :=
  .next (s.issue .read)

/-- WR_CMD_WRITE: rule R202. -/
def execWrCmdWrite (s : State) : Result :=
  .next (s.issue .write)

/-- WR_CMD_RSV: rule R204. -/
def execWrCmdRsv (_d : Byte) (s : State) : Result :=
  .next s.reject

/-- WR_STATUS: rule R315. -/
def execWrStatus (d : Byte) (s : State) : Result :=
  .next (s.clearFlags d)

/-- WR_ERRCODE: rule R312. -/
def execWrErrcode (_d : Byte) (s : State) : Result :=
  ignoreWrite s

/-- WR_DEST: rule R316, and R313 while BUSY. -/
def execWrDest (d : Byte) (s : State) : Result :=
  operandWrite (fun t => t.setDest d) s

/-- WR_SRC: rule R316, and R313 while BUSY. -/
def execWrSrc (d : Byte) (s : State) : Result :=
  operandWrite (fun t => t.setSrc d) s

/-- WR_REG: rule R316, and R313 while BUSY. -/
def execWrReg (d : Byte) (s : State) : Result :=
  operandWrite (fun t => t.setReg d) s

/-- WR_TX_LEN: rule R316, and R313 while BUSY. -/
def execWrTxLen (d : Byte) (s : State) : Result :=
  operandWrite (fun t => t.setTxLen d) s

/-- WR_TO_LIMIT_HI: rule R316, and R313 while BUSY. -/
def execWrToLimitHi (d : Byte) (s : State) : Result :=
  operandWrite (fun t => t.setToLimitHi d) s

/-- WR_TO_LIMIT_LO: rule R316, and R313 while BUSY. -/
def execWrToLimitLo (d : Byte) (s : State) : Result :=
  operandWrite (fun t => t.setToLimitLo d) s

/-- WR_RX_BLEN: rule R312. -/
def execWrRxBlen (_d : Byte) (s : State) : Result :=
  ignoreWrite s

/-- WR_TX_CRC_HI: rule R312. -/
def execWrTxCrcHi (_d : Byte) (s : State) : Result :=
  ignoreWrite s

/-- WR_TX_CRC_LO: rule R312. -/
def execWrTxCrcLo (_d : Byte) (s : State) : Result :=
  ignoreWrite s

/-- WR_RX_RES_HI: rule R312. -/
def execWrRxResHi (_d : Byte) (s : State) : Result :=
  ignoreWrite s

/-- WR_RX_RES_LO: rule R312. -/
def execWrRxResLo (_d : Byte) (s : State) : Result :=
  ignoreWrite s

/-- WR_RX_INFO: rule R312. -/
def execWrRxInfo (_d : Byte) (s : State) : Result :=
  ignoreWrite s

/-- WR_CRC_ACC_HI: rule R180. -/
def execWrCrcAccHi (d : Byte) (s : State) : Result :=
  .next (s.setCrcAcc (pair d (loByte s.crcAcc)))

/-- WR_CRC_ACC_LO: rule R181. -/
def execWrCrcAccLo (d : Byte) (s : State) : Result :=
  .next (s.setCrcAcc (pair (hiByte s.crcAcc) d))

/-- WR_CRC_IN: rule R182. -/
def execWrCrcIn (d : Byte) (s : State) : Result :=
  .next (s.setCrcAcc (crcUpd s.crcAcc d))

/-- WR_RSV_13: rule R312 (and R48). -/
def execWrRsv13 (_d : Byte) (s : State) : Result :=
  ignoreWrite s

/-- WR_RSV_14: rule R312 (and R48). -/
def execWrRsv14 (_d : Byte) (s : State) : Result :=
  ignoreWrite s

/-- WR_RSV_15: rule R312 (and R48). -/
def execWrRsv15 (_d : Byte) (s : State) : Result :=
  ignoreWrite s

/-- WR_RSV_16: rule R312 (and R48). -/
def execWrRsv16 (_d : Byte) (s : State) : Result :=
  ignoreWrite s

/-- WR_RSV_17: rule R312 (and R48). -/
def execWrRsv17 (_d : Byte) (s : State) : Result :=
  ignoreWrite s

/-- WR_RSV_18: rule R312 (and R48). -/
def execWrRsv18 (_d : Byte) (s : State) : Result :=
  ignoreWrite s

/-- WR_RSV_19: rule R312 (and R48). -/
def execWrRsv19 (_d : Byte) (s : State) : Result :=
  ignoreWrite s

/-- WR_RSV_1A: rule R312 (and R48). -/
def execWrRsv1A (_d : Byte) (s : State) : Result :=
  ignoreWrite s

/-- WR_RSV_1B: rule R312 (and R48). -/
def execWrRsv1B (_d : Byte) (s : State) : Result :=
  ignoreWrite s

/-- WR_RSV_1C: rule R312 (and R48). -/
def execWrRsv1C (_d : Byte) (s : State) : Result :=
  ignoreWrite s

/-- WR_RSV_1D: rule R312 (and R48). -/
def execWrRsv1D (_d : Byte) (s : State) : Result :=
  ignoreWrite s

/-- WR_RSV_1E: rule R312 (and R48). -/
def execWrRsv1E (_d : Byte) (s : State) : Result :=
  ignoreWrite s

/-- WR_RSV_1F: rule R312 (and R48). -/
def execWrRsv1F (_d : Byte) (s : State) : Result :=
  ignoreWrite s

/-- WR_TXBUF: rule R316, and R313 while BUSY; a reserved index is ignored in every phase (R312). -/
def execWrTxbuf (i : BitVec 5) (d : Byte) (s : State) : Result :=
  if i.toNat < s.cfg.txbuf then operandWrite (fun t => t.setTxbuf i.toNat d) s else ignoreWrite s

/-- WR_RXBUF: rule R312. -/
def execWrRxbuf (_i : BitVec 6) (_d : Byte) (s : State) : Result :=
  ignoreWrite s

end Sys2Proof.Machine
end

