-- ==== Sys2Proof/Machine/Command.lean ====
section
/-!
DEFINITION. The CMD rows of the opcode table (spec/42_transport_tx.md rules R200 to R204): the byte HOST
writes to CMD (notes/assumptions/9).
-/

namespace Sys2Proof.Machine

/-- NOP: rule R200, no state changes in any phase. -/
def execNop (s : State) : Result :=
  .next s

/-- READ: rule R201. -/
def execRead (s : State) : Result :=
  .next (s.issue .read)

/-- WRITE: rule R202. -/
def execWrite (s : State) : Result :=
  .next (s.issue .write)

/-- CMD_RSV_03: rule R204. -/
def execCmdRsv03 (s : State) : Result :=
  .next s.reject

/-- CMD_RSV: rule R204. -/
def execCmdRsv (_op : BitVec 2) (_rsv : BitVec 6) (s : State) : Result :=
  .next s.reject

end Sys2Proof.Machine
end

