-- ==== Sys2Proof/Machine/Line.lean ====
section
/-!
DEFINITION. The SYM and CHAR rows of the opcode table: what LINE delivers (spec/43_transport_rx.md rules
R240 to R245, spec/44_uart.md rule R295). A two-byte symbol is its two characters, one after the other
(notes/assumptions/12).
-/

namespace Sys2Proof.Machine

/-- START: rule R241 in AWAIT_START, R243 inside a body. -/
def execSymStart (s : State) : Result :=
  .next (s.lineRecv startByte)

/-- END: rule R242. -/
def execSymEnd (s : State) : Result :=
  .next (s.lineRecv endByte)

/-- ESC_0A: the pair rule R140 gives for 0x0A, received by rule R244. -/
def execEsc0A (s : State) : Result :=
  .next (s.lineRecvAll (escByte 0x0A))

/-- ESC_0D: the pair rule R140 gives for 0x0D, received by rule R244. -/
def execEsc0D (s : State) : Result :=
  .next (s.lineRecvAll (escByte 0x0D))

/-- ESC_5E: the pair rule R140 gives for 0x5E, received by rule R244. -/
def execEsc5E (s : State) : Result :=
  .next (s.lineRecvAll (escByte 0x5E))

/-- ESC_NONCANON: rule R244, 0x5E and then y. -/
def execEscNoncanon (y : Byte) (s : State) : Result :=
  .next (s.lineRecvAll [escByteMark, y])

/-- LITERAL: rule R141, received by rule R244. -/
def execLiteral (b : Byte) (s : State) : Result :=
  .next (s.lineRecv b)

/-- CHAR: rules R291 and R295. -/
def execChar (b : Byte) (s : State) : Result :=
  .next (s.lineRecv b)

end Sys2Proof.Machine
end

