-- ==== Sys2Proof/Machine/Request.lean ====
section
/-!
DEFINITION. The REQ rows of the opcode table (spec/30_encoding.md rules R104 and R105): the requests
that READ and WRITE generate (notes/assumptions/10).
-/

namespace Sys2Proof.Machine

/-- REQ_READ: rule R105; the request of code 0x04 is generated by READ (rules R201 and R208). -/
def execReqRead (s : State) : Result :=
  .next (s.issue .read)

/-- REQ_WRITE: rule R105; the request of code 0x05 is generated by WRITE (rules R202 and R208). -/
def execReqWrite (s : State) : Result :=
  .next (s.issue .write)

end Sys2Proof.Machine
end

