-- ==== Sys2Proof/Machine/Response.lean ====
section
/-!
DEFINITION. The RSP rows of the opcode table (spec/43_transport_rx.md rules R250 and R254): VALIDATE of a
response whose body byte 2 is the row's type (notes/assumptions/11).
-/

namespace Sys2Proof.Machine

/-- RSP_NOT_UNDERSTOOD: rule R254, type 0x00. -/
def execRspNotUnderstood (s : State) : Result :=
  .next (s.response 0x00)

/-- RSP_CRC_ERROR: rule R254, type 0x01. -/
def execRspCrcError (s : State) : Result :=
  .next (s.response 0x01)

/-- RSP_BUSY: rule R254, type 0x02. -/
def execRspBusy (s : State) : Result :=
  .next (s.response 0x02)

/-- RSP_WRITE_ACK: rule R254, type 0x03. -/
def execRspWriteAck (s : State) : Result :=
  .next (s.response 0x03)

/-- RSP_READ_ACK: rule R254, type 0x08. -/
def execRspReadAck (s : State) : Result :=
  .next (s.response 0x08)

/-- RSP_RESERVED: rule R254, a reserved type. -/
def execRspReserved (t : Byte) (s : State) : Result :=
  .next (s.response t)

end Sys2Proof.Machine
end

