-- ==== Sys2Proof/Machine/Dispatch.lean ====
section
/-!
DEFINITION. The meaning of every instruction: one arm per constructor of Instr.
-/

namespace Sys2Proof.Machine

def exec (i : Instr) (s : State) : Host.Outcome State Fault Refusal :=
  match i with
  | .nop => Sys2Proof.Machine.execNop s
  | .read => Sys2Proof.Machine.execRead s
  | .write => Sys2Proof.Machine.execWrite s
  | .cmdRsv03 => Sys2Proof.Machine.execCmdRsv03 s
  | .cmdRsv op rsv => Sys2Proof.Machine.execCmdRsv op rsv s
  | .rdCtrl => Sys2Proof.Machine.execRdCtrl s
  | .wrCtrl d => Sys2Proof.Machine.execWrCtrl d s
  | .rdCmd => Sys2Proof.Machine.execRdCmd s
  | .wrCmdNop => Sys2Proof.Machine.execWrCmdNop s
  | .wrCmdRead => Sys2Proof.Machine.execWrCmdRead s
  | .wrCmdWrite => Sys2Proof.Machine.execWrCmdWrite s
  | .wrCmdRsv d => Sys2Proof.Machine.execWrCmdRsv d s
  | .rdStatus => Sys2Proof.Machine.execRdStatus s
  | .wrStatus d => Sys2Proof.Machine.execWrStatus d s
  | .rdErrcode => Sys2Proof.Machine.execRdErrcode s
  | .wrErrcode d => Sys2Proof.Machine.execWrErrcode d s
  | .rdDest => Sys2Proof.Machine.execRdDest s
  | .wrDest d => Sys2Proof.Machine.execWrDest d s
  | .rdSrc => Sys2Proof.Machine.execRdSrc s
  | .wrSrc d => Sys2Proof.Machine.execWrSrc d s
  | .rdReg => Sys2Proof.Machine.execRdReg s
  | .wrReg d => Sys2Proof.Machine.execWrReg d s
  | .rdTxLen => Sys2Proof.Machine.execRdTxLen s
  | .wrTxLen d => Sys2Proof.Machine.execWrTxLen d s
  | .rdToLimitHi => Sys2Proof.Machine.execRdToLimitHi s
  | .wrToLimitHi d => Sys2Proof.Machine.execWrToLimitHi d s
  | .rdToLimitLo => Sys2Proof.Machine.execRdToLimitLo s
  | .wrToLimitLo d => Sys2Proof.Machine.execWrToLimitLo d s
  | .rdRxBlen => Sys2Proof.Machine.execRdRxBlen s
  | .wrRxBlen d => Sys2Proof.Machine.execWrRxBlen d s
  | .rdTxCrcHi => Sys2Proof.Machine.execRdTxCrcHi s
  | .wrTxCrcHi d => Sys2Proof.Machine.execWrTxCrcHi d s
  | .rdTxCrcLo => Sys2Proof.Machine.execRdTxCrcLo s
  | .wrTxCrcLo d => Sys2Proof.Machine.execWrTxCrcLo d s
  | .rdRxResHi => Sys2Proof.Machine.execRdRxResHi s
  | .wrRxResHi d => Sys2Proof.Machine.execWrRxResHi d s
  | .rdRxResLo => Sys2Proof.Machine.execRdRxResLo s
  | .wrRxResLo d => Sys2Proof.Machine.execWrRxResLo d s
  | .rdRxInfo => Sys2Proof.Machine.execRdRxInfo s
  | .wrRxInfo d => Sys2Proof.Machine.execWrRxInfo d s
  | .rdCrcAccHi => Sys2Proof.Machine.execRdCrcAccHi s
  | .wrCrcAccHi d => Sys2Proof.Machine.execWrCrcAccHi d s
  | .rdCrcAccLo => Sys2Proof.Machine.execRdCrcAccLo s
  | .wrCrcAccLo d => Sys2Proof.Machine.execWrCrcAccLo d s
  | .rdCrcIn => Sys2Proof.Machine.execRdCrcIn s
  | .wrCrcIn d => Sys2Proof.Machine.execWrCrcIn d s
  | .rdRsv13 => Sys2Proof.Machine.execRdRsv13 s
  | .wrRsv13 d => Sys2Proof.Machine.execWrRsv13 d s
  | .rdRsv14 => Sys2Proof.Machine.execRdRsv14 s
  | .wrRsv14 d => Sys2Proof.Machine.execWrRsv14 d s
  | .rdRsv15 => Sys2Proof.Machine.execRdRsv15 s
  | .wrRsv15 d => Sys2Proof.Machine.execWrRsv15 d s
  | .rdRsv16 => Sys2Proof.Machine.execRdRsv16 s
  | .wrRsv16 d => Sys2Proof.Machine.execWrRsv16 d s
  | .rdRsv17 => Sys2Proof.Machine.execRdRsv17 s
  | .wrRsv17 d => Sys2Proof.Machine.execWrRsv17 d s
  | .rdRsv18 => Sys2Proof.Machine.execRdRsv18 s
  | .wrRsv18 d => Sys2Proof.Machine.execWrRsv18 d s
  | .rdRsv19 => Sys2Proof.Machine.execRdRsv19 s
  | .wrRsv19 d => Sys2Proof.Machine.execWrRsv19 d s
  | .rdRsv1A => Sys2Proof.Machine.execRdRsv1A s
  | .wrRsv1A d => Sys2Proof.Machine.execWrRsv1A d s
  | .rdRsv1B => Sys2Proof.Machine.execRdRsv1B s
  | .wrRsv1B d => Sys2Proof.Machine.execWrRsv1B d s
  | .rdRsv1C => Sys2Proof.Machine.execRdRsv1C s
  | .wrRsv1C d => Sys2Proof.Machine.execWrRsv1C d s
  | .rdRsv1D => Sys2Proof.Machine.execRdRsv1D s
  | .wrRsv1D d => Sys2Proof.Machine.execWrRsv1D d s
  | .rdRsv1E => Sys2Proof.Machine.execRdRsv1E s
  | .wrRsv1E d => Sys2Proof.Machine.execWrRsv1E d s
  | .rdRsv1F => Sys2Proof.Machine.execRdRsv1F s
  | .wrRsv1F d => Sys2Proof.Machine.execWrRsv1F d s
  | .rdTxbuf k => Sys2Proof.Machine.execRdTxbuf k s
  | .wrTxbuf k d => Sys2Proof.Machine.execWrTxbuf k d s
  | .rdRxbuf k => Sys2Proof.Machine.execRdRxbuf k s
  | .wrRxbuf k d => Sys2Proof.Machine.execWrRxbuf k d s
  | .reqRead => Sys2Proof.Machine.execReqRead s
  | .reqWrite => Sys2Proof.Machine.execReqWrite s
  | .rspNotUnderstood => Sys2Proof.Machine.execRspNotUnderstood s
  | .rspCrcError => Sys2Proof.Machine.execRspCrcError s
  | .rspBusy => Sys2Proof.Machine.execRspBusy s
  | .rspWriteAck => Sys2Proof.Machine.execRspWriteAck s
  | .rspReadAck => Sys2Proof.Machine.execRspReadAck s
  | .rspReserved t => Sys2Proof.Machine.execRspReserved t s
  | .symStart => Sys2Proof.Machine.execSymStart s
  | .symEnd => Sys2Proof.Machine.execSymEnd s
  | .esc0A => Sys2Proof.Machine.execEsc0A s
  | .esc0D => Sys2Proof.Machine.execEsc0D s
  | .esc5E => Sys2Proof.Machine.execEsc5E s
  | .escNoncanon y => Sys2Proof.Machine.execEscNoncanon y s
  | .literal b => Sys2Proof.Machine.execLiteral b s
  | .char b => Sys2Proof.Machine.execChar b s

end Sys2Proof.Machine
end

