-- ==== Sys2Proof/Machine/Fetch.lean ====
section
/-!
DEFINITION. Which step comes next (spec/10_state.md rule R30, spec/00_scope.md rule R11): the front
of the agenda, or a free move when nothing is lined up (notes/assumptions/5). HOST's accesses and
LINE's characters are decoded into instructions, the response type of VALIDATE is read from RXBUF[2],
and the steps the opcode table has no row for are named here.
-/

namespace Sys2Proof.Machine

/-- The agents' steps that are no instruction. -/
inductive AgentStep where
  | txEmit        -- SEQ, rule R210
  | utxDone       -- UTX, rule R294
  | framingError  -- LINE, rule R296
  | tick          -- TICK, rule R361
  | reset         -- RST, rule R380
  | disabled      -- an agent whose step is not enabled: nothing happens (notes/assumptions/7)
  deriving DecidableEq, Repr

/-- What the fetch finds: an instruction or an agent's step, with the state it runs in, a new agenda,
or bytes that are no instruction. -/
inductive Fetched where
  | instr (i : Instr) (s : State)
  | agent (a : AgentStep) (s : State)
  | queued (s : State)
  | refused (r : Refusal)

/-- A new agenda. -/
def State.setAgenda (s : State) (es : List Event) : State := { s with agenda := es }

/-- One free value used up. -/
def State.bumpFresh (s : State) : State := { s with fresh := s.fresh + 1 }

/-- What is left of encoded bytes goes back to the front of the agenda. -/
def State.putBack (s : State) (f : Format) (rest : List Byte) : State :=
  match rest with
  | [] => s
  | b :: bs => s.setAgenda (.coded f (b :: bs) :: s.agenda)

/-- The instruction at the front of encoded bytes. A character whose stop bit is 0 is LINE's framing
error (rule R296). -/
def fetchCoded (f : Format) (bs : List Byte) (s : State) : Fetched :=
  match f with
  | .rsp => .refused .responseFromOutside
  | f =>
    match decode f bs with
    | .ok (i, rest) => .instr i (s.putBack f rest)
    | .error .stopBitZero => .agent .framingError (s.putBack f (bs.drop 2))
    | .error e => .refused (.undecodable f e)

/-- The bytes of a host access, rule R101. -/
def accessBytes : Access → List Byte
  | .read a => busBytes false a 0x00
  | .write a d => busBytes true a d

/-- SEQ's step: TX_EMIT while framing with the transmitter free (rule R210), VALIDATE of the response
whose type is RXBUF[2] while validating (rules R250 and R254), none otherwise. -/
def fetchSeq (s : State) : Fetched :=
  match s.phase with
  | .framing => if s.utxBusy then .agent .disabled s else .agent .txEmit s
  | .validating => .instr (decodeRsp (s.rxbufAt 2)) s
  | .idle => .agent .disabled s
  | .awaitStart => .agent .disabled s
  | .recvBody => .agent .disabled s

/-- The step of one agent, rule R30. -/
def fetchMove (m : Move) (s : State) : Fetched :=
  match m with
  | .host x => fetchCoded .bus (accessBytes x) s
  | .line (.byte b) => fetchCoded .char (charBytes b) s
  | .line .framingError => .agent .framingError s
  | .seq => fetchSeq s
  | .utx => if s.utxBusy then .agent .utxDone s else .agent .disabled s
  | .tick => .agent .tick s
  | .rst => .agent .reset s

/-- The moves of one clock cycle in the order of rule R351. -/
def Cycle.moves (c : Cycle) : List Move :=
  (if c.rst then [.rst] else []) ++ (c.line.map Move.line).toList
    ++ (if c.tick then [.tick] else []) ++ (if c.seq then [.seq] else [])
    ++ (c.host.map Move.host).toList

/-- What happens next. -/
def fetch (s : State) : Fetched :=
  match s.agenda with
  | [] => fetchMove (Config.freeMove s.fresh) s.bumpFresh
  | .coded f bs :: es => fetchCoded f bs (s.setAgenda es)
  | .move m :: es => fetchMove m (s.setAgenda es)
  | .cycle c :: es => .queued (s.setAgenda (c.moves.map Event.move ++ es))

/-- An agent's step. -/
def runAgent (a : AgentStep) (s : State) : Result :=
  match a with
  | .txEmit => Sys2Proof.Machine.txEmit s
  | .utxDone => .next s.utxDone
  | .framingError => .next s.framingError
  | .tick => .next s.tick
  | .reset => .next s.powerReset
  | .disabled => .next s

/-- The state in which the next fetch finds the instruction of a table word (notes/assumptions/17): a
response type stands in RXBUF[2] while validating and SEQ moves next; any other word is presented. -/
def placeWord (s : State) (nbits w : Nat) : State :=
  match tableFormat nbits w with
  | .rsp =>
    { s with mem := s.mem.write (rxbufBase + 2) (BitVec.ofNat 8 w), phase := .validating,
             agenda := .move .seq :: s.agenda }
  | f => s.setAgenda (.coded f (tableBytes nbits w) :: s.agenda)

end Sys2Proof.Machine
end

