-- ==== Sys2Proof/Machine/Step.lean ====
section
/-!
DEFINITION. One step of the STC: the fetch finds what comes next, and the step runs it.
-/

namespace Sys2Proof.Machine

/-- One atomic step, spec/00_scope.md rule R11. -/
def step (s : State) : Host.Outcome State Fault Refusal :=
  match fetch s with
  | .instr i t => exec i t
  | .agent a t => runAgent a t
  | .queued t => .next t
  | .refused r => .refused r

/-- The state s with the word w of the opcode table where the very next step fetches it. -/
def State.withFetchWord (s : State) (nbits w : Nat) : State := placeWord s nbits w

end Sys2Proof.Machine
end

