-- ==== Sys2Proof/Safety.lean ====
section
/-!
DEFINITION. What the statements are made of: the invariants of the STC, runs over given events, and
runs of one agent's step.
-/

namespace Sys2Proof.Machine

/-- The fields hold legal values: the buffer depths are in range (rule R6), the memory is canonical
and lists only buffer bytes (rules R49 and R57), reserved bits are 0 (rules R33 and R47), ERRCODE is
at most 0x0B (rule R36), TX_LEN and RX_BLEN fit their buffers (rules R40 and R41), the hidden counts
are in range (rules R51 and R52). -/
structure State.Legal (s : State) : Prop where
  cfg : s.cfg.wf = true
  canonical : s.mem.wf = true
  listed : ∀ c ∈ s.mem, (txbufBase ≤ c.1 ∧ c.1 < txbufBase + s.cfg.txbuf) ∨
    (rxbufBase ≤ c.1 ∧ c.1 < rxbufBase + s.cfg.rxbuf)
  ctrl : s.ctrl &&& 0xFC = 0x00
  errcode : s.errcode.toNat ≤ 0x0B
  txLen : s.txLen.toNat ≤ s.cfg.txbuf
  rxBlen : s.rxBlen.toNat ≤ s.cfg.rxbuf
  rxInfo : s.rxInfo &&& 0xF0 = 0x00
  rxCnt : s.rxCnt ≤ s.cfg.rxbuf + 1
  txIdx : s.txIdx ≤ s.txFrame.length

/-- While BUSY the result registers of the transaction before are cleared (rules R207 and R394), and
SRC is in range (rule R206). -/
def State.Quiet (s : State) : Prop :=
  s.phase ≠ .idle → s.done = false ∧ s.err = false ∧ s.errcode = 0x00 ∧ s.rxBlen = 0x00 ∧
    s.rxRes = 0x0000 ∧ s.rxInfo = 0x00 ∧ Config.srcMin.toNat ≤ s.src.toNat

/-- While BUSY the frame in flight is the frame of the operands as they stand (rules R95 and R208),
and the index says how much of it is handed over (rules R51 and R210). -/
structure State.Frozen (s : State) : Prop where
  cfg : s.cfg.wf = true
  frame : s.phase ≠ .idle → s.txFrame =
    frame (requestBody s.dest s.src (telegramCode s.op) s.reg (s.payload s.op))
  txCrc : s.phase ≠ .idle → s.txCrc =
    crc16 (requestHead s.dest s.src (telegramCode s.op) s.reg (s.payload s.op))
  framing : s.phase = .framing → s.txIdx < s.txFrame.length
  sent : s.phase ≠ .idle → s.phase ≠ .framing → s.txIdx = s.txFrame.length

/-- In a delimiter wait the count is below the limit, or still 0 when the limit is (rules R361 and
R362). -/
def State.Timed (s : State) : Prop :=
  s.phase = .awaitStart ∨ s.phase = .recvBody → s.toCnt.toNat < max s.toLimit.toNat 1

/-- The running CRC is the CRC of the stored body, as long as the body fits RXBUF (rules R245 and
R248). -/
structure State.Received (s : State) : Prop where
  canonical : s.mem.wf = true
  crc : s.phase = .recvBody ∨ s.phase = .validating → s.rxCnt ≤ s.cfg.rxbuf →
    s.rxCrc = crc16 (s.rxBody s.rxCnt)

/-- k steps of the machine, stopping at the first fault or refusal. -/
def State.run (s : State) (k : Nat) : Host.Outcome State Fault Refusal :=
  Host.Core.run Sys2Proof.core k s

/-- The state with events lined up before whatever is lined up already. -/
def State.offer (s : State) (es : List Event) : State := { s with agenda := es ++ s.agenda }

/-- Bytes that LINE delivers one by one, each a step (rule R295). -/
def lineEvents (bs : List Byte) : List Event := bs.map fun b => .move (.line (.byte b))

/-- n ticks. -/
def tickEvents (n : Nat) : List Event := List.replicate n (.move .tick)

/-- n rounds in which SEQ emits a byte and UTX completes it. -/
def sendEvents : Nat → List Event
  | 0 => []
  | n + 1 => .move .seq :: .move .utx :: sendEvents n

/-- Everything handed to the transmitter so far: what is on the wire, and the byte being sent. -/
def State.handedOver (s : State) : List Byte :=
  s.wireOut ++ if s.utxBusy then [s.utxByte] else []

/-- The next step is the instruction i, run in the state t. -/
def State.Fetches (s : State) (i : Instr) (t : State) : Prop := fetch s = .instr i t

/-- The command an instruction issues, if it issues one (rules R201 and R202, and log 10 for REQ). -/
def commandOf (i : Instr) : Option Op :=
  if i = .read ∨ i = .wrCmdRead ∨ i = .reqRead then some .read
  else if i = .write ∨ i = .wrCmdWrite ∨ i = .reqWrite then some .write
  else none

/-- A write to an operand register (rule R313). -/
def OperandWrite (p : Config.Params) (i : Instr) : Prop :=
  (∃ d, i = .wrDest d ∨ i = .wrSrc d ∨ i = .wrReg d ∨ i = .wrTxLen d ∨ i = .wrToLimitHi d ∨
    i = .wrToLimitLo d) ∨
  ∃ k d, i = .wrTxbuf k d ∧ k.toNat < p.txbuf

/-- A reserved value written to CMD (rule R204). -/
def ReservedCommand (i : Instr) : Prop :=
  i = .cmdRsv03 ∨ (∃ op rsv, i = .cmdRsv op rsv) ∨ ∃ d, i = .wrCmdRsv d

/-- The instruction i is rejected in the state u: a reserved command (rule R204), or, while BUSY, a
command (rule R203) or an operand write (rule R313). -/
def Rejected (i : Instr) (u : State) : Prop :=
  ReservedCommand i ∨
    (u.phase ≠ .idle ∧ ((∃ o, commandOf i = some o) ∨ OperandWrite u.cfg i))

/-- The step from s to t completes a transaction with the code c (rule R345): a tick that ends a
delimiter wait (rule R361), VALIDATE (rule R250), or a command with SRC out of range (rule R206). -/
def CompletesWith (s t : State) (c : ErrCode) : Prop :=
  (∃ u, fetch s = .agent .tick u ∧ t = (u.setToCnt (countUp u.toCnt)).complete c ∧
    (u.phase = .awaitStart ∧ c = .timeoutStart ∨ u.phase = .recvBody ∧ c = .timeoutEnd)) ∨
  (∃ i u, s.Fetches i u ∧ i.format = .rsp ∧ u.phase = .validating ∧
    (t = u.publish.complete c ∨ t = (u.publish.setRxInfo u.info).complete c)) ∨
  (∃ i u o, s.Fetches i u ∧ commandOf i = some o ∧ u.phase = .idle ∧
    u.src.toNat < Config.srcMin.toNat ∧ c = .srcRange ∧ t = (u.accept o).complete c)

/-- In t the bytes ds stand in RXBUF from the index `st.rx_cnt` of s on, as far as they fit, and every
other byte of memory reads as in s (rules R57 and R245). -/
def StoredFrom (s t : State) (ds : List Byte) : Prop :=
  t.mem.wf = true ∧ ∀ a, t.mem.read a =
    if 0x40 + s.rxCnt ≤ a ∧ a < 0x40 + min (s.rxCnt + ds.length) s.cfg.rxbuf then
      ds[a - (0x40 + s.rxCnt)]?.getD 0x00
    else s.mem.read a

/-- Rules R207 and R208 written out: the state after a command is accepted and its request framed,
with the given telegram command code and payload. -/
def requestState (s : State) (op : Op) (code : Byte) (payload : List Byte) : State :=
  let head := [s.dest, s.src, code, s.reg] ++ payload
  let c := crc16 head
  { s with done := false, err := false, errcode := 0x00, rxBlen := 0x00, rxRes := 0x0000,
           rxInfo := 0x00, op := op, rxEsc := false, rxCnt := 0, rxCrc := 0x0000, toCnt := 0x0000,
           txCrc := c,
           txFrame := [0x0D] ++ escape (head ++ [c.extractLsb' 8 8, c.extractLsb' 0 8]) ++ [0x0A],
           txIdx := 0, phase := .framing }

/-- Rules R206 and R345 written out: the state after a command whose source address is out of range. -/
def rangeErrorState (s : State) (op : Op) : State :=
  { s with done := true, err := true, errcode := 0x01, rxBlen := 0x00, rxRes := 0x0000,
           rxInfo := 0x00, op := op, rxEsc := false, rxCnt := 0, rxCrc := 0x0000, toCnt := 0x0000 }

/-- Rule R245 written out, with the decoder state of rule R244 after it: one decoded body byte stored. -/
def storedState (s : State) (d : Byte) : State :=
  { s with mem := if s.rxCnt < s.cfg.rxbuf then s.mem.write (0x40 + s.rxCnt) d else s.mem,
           rxCrc := crcUpd s.rxCrc d, rxCnt := min (s.rxCnt + 1) (s.cfg.rxbuf + 1), rxEsc := false }

/-- Rules R250 and R345 written out: the state after validation with the given code and RX_INFO. -/
def validatedState (s : State) (code info : Byte) : State :=
  { s with rxBlen := BitVec.ofNat 8 (min s.rxCnt s.cfg.rxbuf), rxRes := s.rxCrc, rxInfo := info,
           errcode := code, done := true, err := decide (code ≠ 0x00), phase := .idle }

/-- Rules R250, R254 and R256 written out: the state after VALIDATE of a response of type t. -/
def verdictState (s : State) (t : Byte) : State :=
  let bit (b : Bool) : Byte := if b then 1 else 0
  let info : Byte := bit (s.rxbufAt 0 == s.src) ||| (bit (s.rxbufAt 1 == s.dest) <<< 1)
    ||| (bit (s.rxbufAt 3 == s.reg) <<< 2) ||| 0x08
  if s.rxEsc = true then validatedState s 0x05 s.rxInfo
  else if s.cfg.rxbuf < s.rxCnt then validatedState s 0x04 s.rxInfo
  else if s.rxCnt < 6 then validatedState s 0x06 s.rxInfo
  else if s.rxCrc ≠ 0x0000 then validatedState s 0x07 s.rxInfo
  else if s.op = .read ∧ t = 0x08 then validatedState s 0x00 info
  else if s.op = .write ∧ t = 0x03 then validatedState s 0x00 info
  else if t = 0x00 then validatedState s 0x08 info
  else if t = 0x01 then validatedState s 0x09 info
  else if t = 0x02 then validatedState s 0x0A info
  else validatedState s 0x0B info

/-- Rule R361 written out: the state after a tick. -/
def tickedState (s : State) : State :=
  let c := BitVec.ofNat 16 (min (s.toCnt.toNat + 1) 0xFFFF)
  if s.phase = .awaitStart ∨ s.phase = .recvBody then
    if s.toLimit.toNat ≤ c.toNat then
      { s with toCnt := c, errcode := if s.phase = .awaitStart then 0x02 else 0x03, done := true,
               err := true, phase := .idle }
    else { s with toCnt := c }
  else s

end Sys2Proof.Machine
end

