-- ==== Sys2Proof/Certificates/Slice0/Obligations.lean ====
section
/-!
DEFINITION. The statements about the model. Each docstring names the rules of spec/ the statement
formalises, or says that it rests on a choice of the model and names the log entry.
-/

open Sys2Proof Sys2Proof.Machine

/-! ## Host accesses -/

/-- Rules R310, R205 and R183: a read at any address replies with the byte the rule's table names and
changes nothing else, whatever the phase. (The record of replies is the model's,
notes/assumptions/8.) -/
def Obligations.ReadsReplyAndChangeNothingElse : Prop :=
  ∀ s : State,
    let reply (v : Byte) : Result := .next { s with busReplies := s.busReplies ++ [v] }
    (∀ a : HostAddr, ∃ i, decode .bus [0#1 ++ a, 0x00] = .ok (i, []) ∧
      exec i s = reply (s.hostByte a)) ∧
    encode .rdCmd = [0x01, 0x00] ∧ encode .rdCrcAccHi = [0x0F, 0x00] ∧
    encode .rdCrcAccLo = [0x10, 0x00] ∧ encode .rdCrcIn = [0x11, 0x00] ∧
    exec .rdCtrl s = reply s.ctrl ∧
    exec .rdCmd s = reply 0x00 ∧
    exec .rdStatus s = reply ((s.phase.code.setWidth 8 <<< 5) |||
      ((BitVec.ofBool s.lineErr).setWidth 8 <<< 4) ||| ((BitVec.ofBool s.rej).setWidth 8 <<< 3) |||
      ((BitVec.ofBool s.err).setWidth 8 <<< 2) ||| ((BitVec.ofBool s.done).setWidth 8 <<< 1) |||
      (BitVec.ofBool (decide (s.phase ≠ .idle))).setWidth 8) ∧
    exec .rdErrcode s = reply s.errcode ∧
    exec .rdDest s = reply s.dest ∧
    exec .rdSrc s = reply s.src ∧
    exec .rdReg s = reply s.reg ∧
    exec .rdTxLen s = reply s.txLen ∧
    exec .rdRxBlen s = reply s.rxBlen ∧
    exec .rdTxCrcHi s = reply (s.txCrc.extractLsb' 8 8) ∧
    exec .rdTxCrcLo s = reply (s.txCrc.extractLsb' 0 8) ∧
    exec .rdRxResHi s = reply (s.rxRes.extractLsb' 8 8) ∧
    exec .rdRxResLo s = reply (s.rxRes.extractLsb' 0 8) ∧
    exec .rdToLimitHi s = reply (s.toLimit.extractLsb' 8 8) ∧
    exec .rdToLimitLo s = reply (s.toLimit.extractLsb' 0 8) ∧
    exec .rdCrcAccHi s = reply (s.crcAcc.extractLsb' 8 8) ∧
    exec .rdCrcAccLo s = reply (s.crcAcc.extractLsb' 0 8) ∧
    exec .rdCrcIn s = reply 0x00 ∧
    exec .rdRxInfo s = reply s.rxInfo ∧
    exec .rdRsv13 s = reply 0x00 ∧ exec .rdRsv14 s = reply 0x00 ∧ exec .rdRsv15 s = reply 0x00 ∧
    exec .rdRsv16 s = reply 0x00 ∧ exec .rdRsv17 s = reply 0x00 ∧ exec .rdRsv18 s = reply 0x00 ∧
    exec .rdRsv19 s = reply 0x00 ∧ exec .rdRsv1A s = reply 0x00 ∧ exec .rdRsv1B s = reply 0x00 ∧
    exec .rdRsv1C s = reply 0x00 ∧ exec .rdRsv1D s = reply 0x00 ∧ exec .rdRsv1E s = reply 0x00 ∧
    exec .rdRsv1F s = reply 0x00 ∧
    (∀ i : BitVec 5, exec (.rdTxbuf i) s =
      reply (if i.toNat < s.cfg.txbuf then s.mem.read (0x20 + i.toNat) else 0x00)) ∧
    (∀ i : BitVec 6, exec (.rdRxbuf i) s =
      reply (if i.toNat < s.cfg.rxbuf then s.mem.read (0x40 + i.toNat) else 0x00))

/-- Rule R312: a write to a read-only or reserved address changes nothing and sets no flag, in any
phase. -/
def Obligations.WritesToReadOnlyOrReservedAddressesChangeNothing : Prop :=
  ∀ (s : State) (d : Byte),
    exec (.wrErrcode d) s = .next s ∧ exec (.wrRxBlen d) s = .next s ∧
    exec (.wrTxCrcHi d) s = .next s ∧ exec (.wrTxCrcLo d) s = .next s ∧
    exec (.wrRxResHi d) s = .next s ∧ exec (.wrRxResLo d) s = .next s ∧
    exec (.wrRxInfo d) s = .next s ∧
    exec (.wrRsv13 d) s = .next s ∧ exec (.wrRsv14 d) s = .next s ∧ exec (.wrRsv15 d) s = .next s ∧
    exec (.wrRsv16 d) s = .next s ∧ exec (.wrRsv17 d) s = .next s ∧ exec (.wrRsv18 d) s = .next s ∧
    exec (.wrRsv19 d) s = .next s ∧ exec (.wrRsv1A d) s = .next s ∧ exec (.wrRsv1B d) s = .next s ∧
    exec (.wrRsv1C d) s = .next s ∧ exec (.wrRsv1D d) s = .next s ∧ exec (.wrRsv1E d) s = .next s ∧
    exec (.wrRsv1F d) s = .next s ∧
    (∀ i : BitVec 6, exec (.wrRxbuf i d) s = .next s) ∧
    (∀ i : BitVec 5, s.cfg.txbuf ≤ i.toNat → exec (.wrTxbuf i d) s = .next s)

/-- Rule R316: an operand write while IDLE stores its byte (TX_LEN the smaller of it and P_TXBUF) and
changes nothing else. -/
def Obligations.OperandWritesStoreWhileIdle : Prop :=
  ∀ (s : State) (d : Byte), s.phase = .idle →
    exec (.wrDest d) s = .next { s with dest := d } ∧
    exec (.wrSrc d) s = .next { s with src := d } ∧
    exec (.wrReg d) s = .next { s with reg := d } ∧
    exec (.wrTxLen d) s = .next { s with txLen := BitVec.ofNat 8 (min d.toNat s.cfg.txbuf) } ∧
    exec (.wrToLimitHi d) s = .next { s with toLimit := d ++ s.toLimit.extractLsb' 0 8 } ∧
    exec (.wrToLimitLo d) s = .next { s with toLimit := s.toLimit.extractLsb' 8 8 ++ d } ∧
    (∀ i : BitVec 5, i.toNat < s.cfg.txbuf →
      exec (.wrTxbuf i d) s = .next { s with mem := s.mem.write (0x20 + i.toNat) d })

/-- Rules R316 and R49, the frame of a write to TXBUF[i]: that byte reads as written, every other byte
of memory reads as before, the memory stays canonical and no other field changes. -/
def Obligations.TxbufWriteChangesOneByte : Prop :=
  ∀ (s : State) (i : BitVec 5) (d : Byte), s.mem.wf = true → s.phase = .idle →
    i.toNat < s.cfg.txbuf →
    ∃ t, exec (.wrTxbuf i d) s = .next t ∧ t.mem.wf = true ∧ { t with mem := s.mem } = s ∧
      ∀ a, t.mem.read a = if a = 0x20 + i.toNat then d else s.mem.read a

/-- Rule R313: while BUSY a write to an operand register sets STATUS.REJ and changes nothing else;
writes to CTRL, STATUS, CRC_ACC_HI, CRC_ACC_LO and CRC_IN are never rejected. -/
def Obligations.OperandWritesAreRejectedWhileBusy : Prop :=
  (∀ (s : State) (d : Byte), s.phase ≠ .idle →
    exec (.wrDest d) s = .next { s with rej := true } ∧
    exec (.wrSrc d) s = .next { s with rej := true } ∧
    exec (.wrReg d) s = .next { s with rej := true } ∧
    exec (.wrTxLen d) s = .next { s with rej := true } ∧
    exec (.wrToLimitHi d) s = .next { s with rej := true } ∧
    exec (.wrToLimitLo d) s = .next { s with rej := true } ∧
    (∀ i : BitVec 5, i.toNat < s.cfg.txbuf →
      exec (.wrTxbuf i d) s = .next { s with rej := true })) ∧
  (∀ (s t : State) (d : Byte),
    (exec (.wrCtrl d) s = .next t ∨ exec (.wrStatus d) s = .next t ∨
      exec (.wrCrcAccHi d) s = .next t ∨ exec (.wrCrcAccLo d) s = .next t ∨
      exec (.wrCrcIn d) s = .next t) → t.rej = true → s.rej = true)

/-- Rule R314: CTRL keeps bits 1:0 of the byte written, in every phase; nothing else is stored, and
obs.irq follows. -/
def Obligations.CtrlWriteKeepsTheEnableBits : Prop :=
  ∀ (s : State) (d : Byte),
    encode (.wrCtrl d) = [0x80, d] ∧
    exec (.wrCtrl d) s = .next { s with ctrl := d &&& 0x03 } ∧
    State.irq { s with ctrl := d &&& 0x03 } =
      ((s.done && d.getLsbD 0) || (s.err && d.getLsbD 1))

/-- Rule R315: bits 1 to 4 of the byte written clear DONE, ERR, REJ and LINE_ERR; bits 0 and 7:5 are
ignored, nothing else is stored, and obs.irq follows. -/
def Obligations.StatusWriteClearsTheSelectedFlags : Prop :=
  ∀ (s : State) (d : Byte),
    let t : State := { s with
      done := if d.getLsbD 1 then false else s.done
      err := if d.getLsbD 2 then false else s.err
      rej := if d.getLsbD 3 then false else s.rej
      lineErr := if d.getLsbD 4 then false else s.lineErr }
    encode (.wrStatus d) = [0x82, d] ∧ exec (.wrStatus d) s = .next t ∧
    t.irq = ((s.done && !d.getLsbD 1 && s.ctrl.getLsbD 0) ||
      (s.err && !d.getLsbD 2 && s.ctrl.getLsbD 1))

/-- Rules R180, R181 and R182: the writes of the standalone CRC unit, in every phase. -/
def Obligations.CrcUnitWritesChangeOnlyTheAccumulator : Prop :=
  ∀ (s : State) (d : Byte),
    encode (.wrCrcAccHi d) = [0x8F, d] ∧ encode (.wrCrcAccLo d) = [0x90, d] ∧
    encode (.wrCrcIn d) = [0x91, d] ∧
    exec (.wrCrcAccHi d) s = .next { s with crcAcc := d ++ s.crcAcc.extractLsb' 0 8 } ∧
    exec (.wrCrcAccLo d) s = .next { s with crcAcc := s.crcAcc.extractLsb' 8 8 ++ d } ∧
    exec (.wrCrcIn d) s = .next { s with crcAcc := crcUpd s.crcAcc d }

/-! ## Commands -/

/-- Rules R200 and R204: NOP changes nothing, and a reserved CMD value sets STATUS.REJ and changes
nothing else, in any phase. -/
def Obligations.NopAndReservedCommandsInAnyPhase : Prop :=
  ∀ s : State,
    encode .nop = [0x00] ∧ encode .wrCmdNop = [0x81, 0x00] ∧
    exec .nop s = .next s ∧ exec .wrCmdNop s = .next s ∧
    (∀ d : Byte, d ≠ 0x00 → d ≠ 0x01 → d ≠ 0x02 → ∃ i j, decode .cmd [d] = .ok (i, []) ∧
      decode .bus [0x81, d] = .ok (j, []) ∧ exec i s = .next { s with rej := true } ∧
      exec j s = .next { s with rej := true }) ∧
    exec .cmdRsv03 s = .next { s with rej := true } ∧
    (∀ op rsv, (Instr.cmdRsv op rsv).wf = true →
      exec (.cmdRsv op rsv) s = .next { s with rej := true }) ∧
    (∀ d, (Instr.wrCmdRsv d).wf = true → exec (.wrCmdRsv d) s = .next { s with rej := true })

/-- Rule R203: READ or WRITE while BUSY sets STATUS.REJ and changes nothing else. -/
def Obligations.CommandsWhileBusyAreRejected : Prop :=
  ∀ s : State, s.phase ≠ .idle →
    exec .read s = .next { s with rej := true } ∧
    exec .wrCmdRead s = .next { s with rej := true } ∧
    exec .write s = .next { s with rej := true } ∧
    exec .wrCmdWrite s = .next { s with rej := true }

/-- Rule R206: a command with SRC below 0xA1 completes at once with SRC_RANGE: no byte is sent, the
phase stays IDLE and TX_CRC is unchanged. -/
def Obligations.SourceOutOfRangeCompletesAtOnce : Prop :=
  ∀ s : State, s.phase = .idle → s.src.toNat < 0xA1 →
    exec .read s = .next (rangeErrorState s .read) ∧
    exec .wrCmdRead s = .next (rangeErrorState s .read) ∧
    exec .write s = .next (rangeErrorState s .write) ∧
    exec .wrCmdWrite s = .next (rangeErrorState s .write)

/-- Rules R207 and R208 for READ (R201): an accepted READ clears the results of the transaction before
and frames a request of code 0x04 without payload, whatever TX_LEN is. -/
def Obligations.AcceptedReadFramesItsRequest : Prop :=
  ∀ s : State, s.phase = .idle → 0xA1 ≤ s.src.toNat →
    exec .read s = .next (requestState s .read 0x04 []) ∧
    exec .wrCmdRead s = .next (requestState s .read 0x04 [])

/-- Rules R207 and R208 for WRITE (R202): an accepted WRITE frames a request of code 0x05 with the
payload TXBUF[0..TX_LEN). -/
def Obligations.AcceptedWriteFramesItsRequest : Prop :=
  ∀ s : State, s.phase = .idle → 0xA1 ≤ s.src.toNat → s.txLen.toNat ≤ s.cfg.txbuf →
    let payload := (List.range s.txLen.toNat).map fun i => s.mem.read (0x20 + i)
    exec .write s = .next (requestState s .write 0x05 payload) ∧
    exec .wrCmdWrite s = .next (requestState s .write 0x05 payload)

/-- The model's reading of the REQ rows (notes/assumptions/10), from rules R104 and R105: the request
of code 0x04 is generated by READ, that of code 0x05 by WRITE, with the checks of R203 and R206. -/
def Obligations.RequestRowsGenerateTheirRequest : Prop :=
  (∀ s : State, s.phase = .idle → 0xA1 ≤ s.src.toNat → s.txLen.toNat ≤ s.cfg.txbuf →
    exec .reqRead s = .next (requestState s .read 0x04 []) ∧
    exec .reqWrite s = .next (requestState s .write 0x05
      ((List.range s.txLen.toNat).map fun i => s.mem.read (0x20 + i)))) ∧
  (∀ s : State, s.phase ≠ .idle →
    exec .reqRead s = .next { s with rej := true } ∧
    exec .reqWrite s = .next { s with rej := true }) ∧
  (∀ s : State, s.phase = .idle → s.src.toNat < 0xA1 →
    exec .reqRead s = .next (rangeErrorState s .read) ∧
    exec .reqWrite s = .next (rangeErrorState s .write))

/-! ## Reception -/

/-- Rules R240, R241, R242, R244, R245 and R247 whole: what a delivered byte does, by phase. -/
def Obligations.DeliveredByteActsByPhase : Prop :=
  ∀ (s : State) (b : Byte), exec (.char b) s = .next (
    match s.phase with
    | .idle => s
    | .framing => s
    | .validating => s
    | .awaitStart =>
      if b = 0x0D then
        { s with phase := .recvBody, rxEsc := false, rxCnt := 0, rxCrc := 0x0000, toCnt := 0x0000 }
      else s
    | .recvBody =>
      if b = 0x0A then { s with phase := .validating }
      else if s.rxEsc = true then storedState s (b - 0x40)
      else if b = 0x5E then { s with rxEsc := true }
      else storedState s b)

/-- Rule R241 for the symbols: in AWAIT_START the symbol START opens the body, as does the pair
0x5E 0x0D, whose second byte is a START, and every other symbol is discarded. That a pair is delivered
as its two bytes in one step is the model's reading (notes/assumptions/12). -/
def Obligations.HuntSymbolsOpenABodyOrAreDiscarded : Prop :=
  ∀ s : State, s.phase = .awaitStart →
    let opened : State :=
      { s with phase := .recvBody, rxEsc := false, rxCnt := 0, rxCrc := 0x0000, toCnt := 0x0000 }
    exec .symStart s = .next opened ∧ exec .symEnd s = .next s ∧
    exec .esc0A s = .next s ∧ exec .esc0D s = .next s ∧ exec .esc5E s = .next s ∧
    (∀ y, y ≠ 0x0D → exec (.escNoncanon y) s = .next s) ∧
    exec (.escNoncanon 0x0D) s = .next opened ∧
    (∀ b, (Instr.literal b).wf = true → exec (.literal b) s = .next s)

/-- Rule R242: END ends the body even directly after an ESC; the byte is neither stored, decoded nor
fed to the CRC. -/
def Obligations.EndEndsTheBodyEvenAfterEsc : Prop :=
  ∀ s : State, s.phase = .recvBody → exec .symEnd s = .next { s with phase := .validating }

/-- From rules R140, R141, R243 and R244: the body byte each symbol stands for, stored by rule R245; and
the same symbols where a character 0x5E before them has left an ESC pending, which takes their first
byte as its second. Rule R295 makes each byte a step: that a pair is its two bytes in one step, also
with an ESC pending, is the model's reading (notes/assumptions/12). -/
def Obligations.BodySymbolsStoreTheirByte : Prop :=
  ∀ s : State, s.phase = .recvBody →
    (s.rxEsc = false →
      exec .esc0A s = .next (storedState s 0x0A) ∧
      exec .esc0D s = .next (storedState s 0x0D) ∧
      exec .esc5E s = .next (storedState s 0x5E) ∧
      (∀ y, (Instr.escNoncanon y).wf = true →
        exec (.escNoncanon y) s = .next (storedState s (y - 0x40))) ∧
      (∀ b, (Instr.literal b).wf = true → exec (.literal b) s = .next (storedState s b)) ∧
      exec .symStart s = .next (storedState s 0x0D)) ∧
    (s.rxEsc = true →
      exec .esc0A s = .next (storedState (storedState s 0x1E) 0x4A) ∧
      exec .esc0D s = .next (storedState (storedState s 0x1E) 0x4D) ∧
      exec .esc5E s = .next (storedState (storedState s 0x1E) 0x9E) ∧
      (∀ y, (Instr.escNoncanon y).wf = true → exec (.escNoncanon y) s = .next
        (if y = 0x5E then { storedState s 0x1E with rxEsc := true }
          else storedState (storedState s 0x1E) y)) ∧
      (∀ b, (Instr.literal b).wf = true → exec (.literal b) s = .next (storedState s (b - 0x40))) ∧
      exec .symStart s = .next (storedState s 0xCD))

/-- Rule R247 for every symbol and character: outside AWAIT_START and RECV_BODY it is discarded with
no state change. -/
def Obligations.BytesOutsideTheListeningPhasesAreDiscarded : Prop :=
  ∀ (s : State) (i : Instr), i.format = .sym ∨ i.format = .char →
    s.phase = .idle ∨ s.phase = .framing ∨ s.phase = .validating → exec i s = .next s

/-- From rules R242 to R245 and R57, what reception does to memory, for every character and symbol in
RECV_BODY, with an ESC pending or not: RXBUF holds the bytes stored from index `st.rx_cnt` on as far as
they fit, every other byte of memory reads as before, and the memory stays canonical. That a pair is
its two bytes in one step is the model's reading (notes/assumptions/12). -/
def Obligations.StoredByteChangesOneByteOfMemory : Prop :=
  ∀ s : State, s.mem.wf = true → s.phase = .recvBody →
    (∀ b, ∃ t, exec (.char b) s = .next t ∧ StoredFrom s t
      (if b = 0x0A then [] else if s.rxEsc = true then [b - 0x40] else if b = 0x5E then [] else [b])) ∧
    (∀ b, (Instr.literal b).wf = true → ∃ t, exec (.literal b) s = .next t ∧
      StoredFrom s t (if s.rxEsc = true then [b - 0x40] else [b])) ∧
    (∃ t, exec .symStart s = .next t ∧ StoredFrom s t (if s.rxEsc = true then [0xCD] else [0x0D])) ∧
    (∃ t, exec .symEnd s = .next t ∧ StoredFrom s t []) ∧
    (∃ t, exec .esc0A s = .next t ∧
      StoredFrom s t (if s.rxEsc = true then [0x1E, 0x4A] else [0x0A])) ∧
    (∃ t, exec .esc0D s = .next t ∧
      StoredFrom s t (if s.rxEsc = true then [0x1E, 0x4D] else [0x0D])) ∧
    (∃ t, exec .esc5E s = .next t ∧
      StoredFrom s t (if s.rxEsc = true then [0x1E, 0x9E] else [0x5E])) ∧
    (∀ y, (Instr.escNoncanon y).wf = true → ∃ t, exec (.escNoncanon y) s = .next t ∧
      StoredFrom s t (if s.rxEsc = false then [y - 0x40] else if y = 0x5E then [0x1E] else [0x1E, y]))

/-! ## Validation -/

/-- The model's reading of the RSP rows (notes/assumptions/11), from rules R250, R254 and R256: in
VALIDATING the row of type t is VALIDATE of a response of that type, and in another phase nothing
happens. -/
def Obligations.ResponseRowsValidate : Prop :=
  (∀ s : State, s.phase = .validating →
    exec .rspNotUnderstood s = .next (verdictState s 0x00) ∧
    exec .rspCrcError s = .next (verdictState s 0x01) ∧
    exec .rspBusy s = .next (verdictState s 0x02) ∧
    exec .rspWriteAck s = .next (verdictState s 0x03) ∧
    exec .rspReadAck s = .next (verdictState s 0x08) ∧
    (∀ t, (Instr.rspReserved t).wf = true → exec (.rspReserved t) s = .next (verdictState s t))) ∧
  (∀ (s : State) (i : Instr), i.format = .rsp → s.phase ≠ .validating → exec i s = .next s)

/-- Rules R250 and R254: SEQ's step in VALIDATING makes the checks in the order of the rule, classifies
RXBUF[2] and completes. -/
def Obligations.ValidateStepReportsTheFirstCodeThatApplies : Prop :=
  ∀ (s : State) (es : List Event), s.agenda = .move .seq :: es → s.phase = .validating →
    step s = .next (verdictState { s with agenda := es } (s.rxbufAt 2))

/-- Rules R252 and R255: when a transaction that is validated succeeds, the body in RXBUF is at least
six bytes long, its CRC residue is 0x0000, and its type is the one its command expects. -/
def Obligations.SuccessMeansIntactBodyOfTheExpectedType : Prop :=
  ∀ (s t : State) (es : List Event), s.Legal → s.Received → s.agenda = .move .seq :: es →
    s.phase = .validating → step s = .next t → t.errcode = 0x00 →
    6 ≤ t.rxBlen.toNat ∧ crc16 (t.rxBody t.rxBlen.toNat) = 0x0000 ∧
      t.rxbufAt 2 = (match t.op with | .read => 0x08 | .write => 0x03)

/-! ## The steps of the agents -/

/-- A step runs the decoded instruction: of encoded bytes (the bytes after it stay in front), of a
host access, of a character, and of the response type in RXBUF[2] while validating. That encoded bytes
are lined up and put back is the model's choice (notes/assumptions/5), and that SEQ's step in
VALIDATING is the RSP row of RXBUF[2] its reading of rules R250 and R254 (notes/assumptions/11). -/
def Obligations.StepRunsTheDecodedInstruction : Prop :=
  ∀ (s : State) (es : List Event),
    (∀ f bs i rest, s.agenda = .coded f bs :: es → f ≠ .rsp → decode f bs = .ok (i, rest) →
      step s = exec i { s with agenda := if rest = [] then es else .coded f rest :: es }) ∧
    (∀ x, s.agenda = .move (.host x) :: es →
      ∃ i, i.wf = true ∧ i.format = .bus ∧ decode .bus (accessBytes x) = .ok (i, []) ∧
        step s = exec i { s with agenda := es }) ∧
    (∀ b, s.agenda = .move (.line (.byte b)) :: es →
      step s = exec (.char b) { s with agenda := es }) ∧
    (s.agenda = .move .seq :: es → s.phase = .validating →
      step s = exec (decodeRsp (s.rxbufAt 2)) { s with agenda := es })

/-- The model's choice (notes/assumptions/5), from rule R11: with nothing lined up the step is that of
a free move. -/
def Obligations.EmptyAgendaTakesAFreeMove : Prop :=
  ∀ s : State, s.agenda = [] →
    step s = step { s with agenda := [.move (Config.freeMove s.fresh)], fresh := s.fresh + 1 }

/-- Rule R361: a tick counts in the two delimiter waits, completes when the limit is reached, and
changes nothing in another phase. -/
def Obligations.TickCountsAndTimesOut : Prop :=
  ∀ (s : State) (es : List Event), s.agenda = .move .tick :: es →
    step s = .next (tickedState { s with agenda := es })

/-- Rule R210: TX_EMIT hands the byte at the index to the transmitter and advances the index; after the
last byte the hunt begins and the timeout count restarts. -/
def Obligations.EmitHandsOverTheNextByte : Prop :=
  ∀ (s : State) (es : List Event) (b : Byte), s.agenda = .move .seq :: es →
    s.phase = .framing → s.utxBusy = false → s.txFrame[s.txIdx]? = some b →
    step s = .next (
      if s.txIdx + 1 = s.txFrame.length then
        { s with agenda := es, utxByte := b, utxBusy := true, txIdx := s.txIdx + 1,
                 phase := .awaitStart, toCnt := 0x0000 }
      else { s with agenda := es, utxByte := b, utxBusy := true, txIdx := s.txIdx + 1 })

/-- Rules R294 and R296: UTX_DONE appends the character to obs.wire_out and frees the transmitter; a
framing error sets STATUS.LINE_ERR and changes nothing else. -/
def Obligations.TransmitterAndFramingErrorSteps : Prop :=
  ∀ (s : State) (es : List Event),
    (s.agenda = .move .utx :: es → s.utxBusy = true →
      step s = .next { s with agenda := es, wireOut := s.wireOut ++ [s.utxByte], utxBusy := false }) ∧
    (s.agenda = .move (.line .framingError) :: es →
      step s = .next { s with agenda := es, lineErr := true })

/-- Rule R291, with the idle level of R290: bit period 0 of a character is 0, the periods 1 to 8 are
the byte's bits from bit 0 on, period 9 is 1, and the pin is 1 while no character is sent. -/
def Obligations.TransmitPinCarriesTheCharacter : Prop :=
  ∀ s : State,
    (s.utxBusy = true → s.uartTx 0 = false ∧ (∀ k, k < 8 → s.uartTx (k + 1) = s.utxByte.getLsbD k) ∧
      s.uartTx 9 = true) ∧
    (s.utxBusy = false → ∀ k, s.uartTx k = true)

/-- The model's choice (notes/assumptions/7): an agent whose step is not enabled changes nothing. -/
def Obligations.DisabledAgentsChangeNothing : Prop :=
  ∀ (s : State) (es : List Event),
    (s.agenda = .move .utx :: es → s.utxBusy = false → step s = .next { s with agenda := es }) ∧
    (s.agenda = .move .seq :: es →
      s.phase = .idle ∨ s.phase = .awaitStart ∨ s.phase = .recvBody ∨
        (s.phase = .framing ∧ s.utxBusy = true) → step s = .next { s with agenda := es })

/-- Rules R380 and R381: RESET sets every piece of state the rule gives a value, in any phase;
obs.wire_out is not shortened, the character cut off is not added to it, and no interrupt is raised.
(TXBUF, RXBUF, st.op and st.utx_byte take free values: notes/assumptions/4.) -/
def Obligations.ResetStepSetsTheSpecValues : Prop :=
  ∀ (s : State) (es : List Event), s.agenda = .move .rst :: es →
    ∃ t, step s = .next t ∧
      t.ctrl = 0x00 ∧ t.statusByte = 0x00 ∧ t.errcode = 0x00 ∧ t.dest = 0x0F ∧ t.src = 0xA1 ∧
      t.reg = 0x00 ∧ t.txLen = 0x00 ∧ t.rxBlen = 0x00 ∧ t.txCrc = 0x0000 ∧ t.rxRes = 0x0000 ∧
      t.toLimit = 0xFFFF ∧ t.crcAcc = 0x0000 ∧ t.rxInfo = 0x00 ∧ t.phase = .idle ∧
      t.txFrame = [] ∧ t.txIdx = 0 ∧ t.rxEsc = false ∧ t.rxCnt = 0 ∧ t.rxCrc = 0x0000 ∧
      t.toCnt = 0x0000 ∧ t.utxBusy = false ∧ t.irq = false ∧ t.wireOut = s.wireOut ∧
      t.cfg = s.cfg ∧ t.mem.wf = true ∧ t.agenda = es

/-- Rule R380: the values reset leaves, in the state the machine starts in. -/
def Obligations.ResetStateHasTheSpecValues : Prop :=
  let t := State.reset
  t.ctrl = 0x00 ∧ t.statusByte = 0x00 ∧ t.errcode = 0x00 ∧ t.dest = 0x0F ∧ t.src = 0xA1 ∧
  t.reg = 0x00 ∧ t.txLen = 0x00 ∧ t.rxBlen = 0x00 ∧ t.txCrc = 0x0000 ∧ t.rxRes = 0x0000 ∧
  t.toLimit = 0xFFFF ∧ t.crcAcc = 0x0000 ∧ t.rxInfo = 0x00 ∧ t.phase = .idle ∧
  t.txFrame = [] ∧ t.txIdx = 0 ∧ t.rxEsc = false ∧ t.rxCnt = 0 ∧ t.rxCrc = 0x0000 ∧
  t.toCnt = 0x0000 ∧ t.utxBusy = false ∧ t.irq = false ∧ t.wireOut = [] ∧
  t.cfg.txbuf = 32 ∧ t.cfg.rxbuf = 64

/-- Rule R351 (notes/assumptions/6): the events of one clock cycle are taken in the order reset, LINE,
TICK, SEQ, HOST. -/
def Obligations.CycleTakesItsEventsInOrder : Prop :=
  ∀ (s : State) (c : Cycle) (es : List Event), s.agenda = .cycle c :: es →
    step s = .next { s with agenda :=
      (if c.rst then [.move .rst] else []) ++
      (match c.line with | some e => [.move (.line e)] | none => []) ++
      (if c.tick then [.move .tick] else []) ++ (if c.seq then [.move .seq] else []) ++
      (match c.host with | some x => [.move (.host x)] | none => []) ++ es }

/-- From rule R351: with TO_LIMIT at least 2, a START in the same cycle as the tick that would expire
the wait for it wins. The three steps (the cycle's events lined up, the START, the tick), and that the
tick counts in the window the START has opened, are the model's reading, which is why limits 0 and 1,
where that tick ends the new window (rule R361), are left out (notes/assumptions/6). -/
def Obligations.StartBeatsTheTickOfItsCycle : Prop :=
  ∀ (s : State) (es : List Event), s.phase = .awaitStart → 2 ≤ s.toLimit.toNat →
    s.agenda = .cycle ⟨false, some (.byte 0x0D), true, false, none⟩ :: es →
    ∃ t, s.run 3 = .next t ∧ t.phase = .recvBody ∧ t.toCnt = 0x0001 ∧ t.agenda = es ∧
      t.done = s.done ∧ t.err = s.err ∧ t.errcode = s.errcode

/-- Rules R345 and R355: completion writes the code, sets DONE, sets ERR for a nonzero code, returns
to IDLE and raises the interrupt when enabled; acceptance takes the interrupt away. -/
def Obligations.CompletionPublishesAndRaisesTheInterrupt : Prop :=
  ∀ (s : State) (c : ErrCode) (o : Op),
    s.complete c = { s with errcode := c.toByte, done := true,
                            err := decide (c.toByte ≠ 0x00), phase := .idle } ∧
    (s.complete c).irq = (s.ctrl.getLsbD 0 || (decide (c.toByte ≠ 0x00) && s.ctrl.getLsbD 1)) ∧
    (s.accept o).irq = false

/-! ## Encoding -/

/-- Decoding the encoding of a well-formed instruction gives it back, with whatever follows it. -/
def Obligations.DecodeOfEncode : Prop :=
  ∀ (i : Instr) (rest : List Byte), i.wf = true →
    decode i.format (encode i ++ rest) = .ok (i, rest)

/-- Every instruction the decoder gives is well-formed and its encoding is the bytes read; only an ESC
before END, or with nothing after it, is read from symbols as a character (rule R110,
notes/assumptions/22). -/
def Obligations.EncodeOfDecode : Prop :=
  ∀ (f : Format) (bs rest : List Byte) (i : Instr), decode f bs = .ok (i, rest) →
    i.wf = true ∧
    ((i.format = f ∧ encode i ++ rest = bs) ∨
      (f = .sym ∧ i = .char 0x5E ∧ bs = 0x5E :: rest))

/-- Words written out from the tables of rules R101, R103, R105, R107, R110 and R291, each in the
format the model reads such a word in. The formats share bit patterns, and which one a word given alone
is read in is the model's choice (notes/assumptions/16), as is the order of a character's levels in a
word (notes/assumptions/13). -/
def Obligations.TableWordsDecodeToTheirRows : Prop :=
  decodeTableWord 8 0x01 = some .read ∧ decodeTableWord 8 0x05 = some .reqWrite ∧
  decodeTableWord 8 0x08 = some .rspReadAck ∧ decodeTableWord 8 0x0D = some .symStart ∧
  decodeTableWord 8 0x81 = some (.cmdRsv 1 0x20) ∧
  decodeTableWord 16 0x8661 = some (.wrReg 0x61) ∧ decodeTableWord 16 0x0200 = some .rdStatus ∧
  decodeTableWord 16 0xA002 = some (.wrTxbuf 0 0x02) ∧
  decodeTableWord 16 0x4400 = some (.rdRxbuf 4) ∧ decodeTableWord 16 0x5E4A = some .esc0A ∧
  decodeTableWord 16 0x5E41 = some (.escNoncanon 0x41) ∧
  decodeTableWord 16 0x010D = some (.char 0x61)

/-! ## Escaping -/

/-- Rules R147 and R148: unescaping an escaped sequence gives it back, with no ESC left over, so the
encoder is injective. -/
def Obligations.UnescapeOfEscape : Prop :=
  (∀ s : List Byte, unescape (escape s) = (s, false)) ∧
  (∀ s t : List Byte, escape s = escape t → s = t)

/-- Rule R146: an escaped sequence holds neither delimiter, and each ESC in it is followed by 0x4A,
0x4D or 0x9E. -/
def Obligations.EscapedSequencesAreDelimiterFree : Prop :=
  ∀ s : List Byte, (0x0A : Byte) ∉ escape s ∧ (0x0D : Byte) ∉ escape s ∧
    ∀ k : Nat, (escape s)[k]? = some 0x5E →
      (escape s)[k + 1]? = some 0x4A ∨ (escape s)[k + 1]? = some 0x4D ∨
        (escape s)[k + 1]? = some 0x9E

/-- Rule R145: the length of an escaped sequence. -/
def Obligations.EscapedLength : Prop :=
  ∀ s : List Byte, (escape s).length = s.length + s.countP isReserved ∧
    (escape s).length ≤ 2 * s.length

/-! ## CRC -/

/-- Rule R174: the residue of a sequence followed by its own CRC, big-endian, is 0x0000. -/
def Obligations.CrcResidueOfAnIntactBodyIsZero : Prop :=
  ∀ s : List Byte,
    crc16 (s ++ [(crc16 s).extractLsb' 8 8, (crc16 s).extractLsb' 0 8]) = 0x0000

/-- Rule R173: the table form gives the same result as rule R171. -/
def Obligations.CrcTableFormAgrees : Prop :=
  ∀ (c : Word16) (b : Byte),
    crcUpd c b = (c <<< 8) ^^^ crcUpd 0x0000 (c.extractLsb' 8 8 ^^^ b)

/-- Rules R175 and R176: leading zero bytes are invisible to the CRC, and the check value. -/
def Obligations.CrcZeroPrefixAndCheckValue : Prop :=
  (∀ s : List Byte, crc16 (0x00 :: s) = crc16 s) ∧
  crc16 [0x31, 0x32, 0x33, 0x34, 0x35, 0x36, 0x37, 0x38, 0x39] = 0x31C3

/-! ## Whole transactions -/

/-- Rule R209, the bounds that need no exhaustive search: the source byte and the command code are
never escaped, so a frame with n payload bytes has 8 + n to 12 + 2n bytes. -/
def Obligations.FrameLengthBounds : Prop :=
  ∀ (dest src reg : Byte) (o : Op) (p : List Byte), 0xA1 ≤ src.toNat →
    8 + p.length ≤ (frame (requestBody dest src (telegramCode o) reg p)).length ∧
    (frame (requestBody dest src (telegramCode o) reg p)).length ≤ 12 + 2 * p.length

/-- Rule R248: when LINE delivers START, bytes without END, and END, one byte a step, the machine is in
VALIDATING, `st.rx_esc` is set exactly when the unescaped bytes leave an ESC dangling, `st.rx_crc` is
the CRC of the unescaped body, `st.rx_cnt` its length (saturating), and RXBUF holds it. -/
def Obligations.ReceptionAgreesWithUnescape : Prop :=
  ∀ (s : State) (raw : List Byte), s.mem.wf = true → s.phase = .awaitStart → 0x0A ∉ raw →
    ∃ t, (s.offer (lineEvents ([0x0D] ++ raw ++ [0x0A]))).run (raw.length + 2) = .next t ∧
      t.phase = .validating ∧ t.rxEsc = (unescape raw).2 ∧ t.rxCrc = crc16 (unescape raw).1 ∧
      t.rxCnt = min (unescape raw).1.length (s.cfg.rxbuf + 1) ∧
      (∀ i, i < min (unescape raw).1.length s.cfg.rxbuf → (unescape raw).1[i]? = some (t.rxbufAt i)) ∧
      t.agenda = s.agenda

/-- Rule R211. From acceptance with the transmitter free, rounds of SEQ and UTX put exactly
`st.tx_frame` on the wire, in order, and the hunt begins. And under every interleaving: acceptance puts
nothing on the wire, and every other step but a reset keeps the frame, and keeps what is handed over
equal to what was handed over before the frame with the frame's first `st.tx_idx` bytes after it. -/
def Obligations.FrameReachesTheWireInOrder : Prop :=
  (∀ s : State, s.phase = .framing → s.txIdx = 0 → s.txFrame ≠ [] → s.utxBusy = false →
    ∃ t, (s.offer (sendEvents s.txFrame.length)).run (2 * s.txFrame.length) = .next t ∧
      t.wireOut = s.wireOut ++ s.txFrame ∧ t.phase = .awaitStart ∧ t.toCnt = 0x0000 ∧
      t.utxBusy = false ∧ t.agenda = s.agenda) ∧
  (∀ s t : State, step s = .next t → (∀ u, fetch s ≠ .agent .reset u) →
    (s.phase = .idle ∧ t.phase = .framing → t.txIdx = 0 ∧ t.handedOver = s.handedOver) ∧
    (¬ (s.phase = .idle ∧ t.phase = .framing) → t.txFrame = s.txFrame ∧
      ∀ w, s.handedOver = w ++ s.txFrame.take s.txIdx → t.handedOver = w ++ t.txFrame.take t.txIdx))

/-- Rules R361 and R362: on a silent line the wait for START ends at tick max(TO_LIMIT, 1) with
TIMEOUT_START, and not before. -/
def Obligations.SilentLineTimesOutAtTheLimit : Prop :=
  ∀ (s : State) (k : Nat), s.phase = .awaitStart → s.toCnt = 0x0000 →
    (k < max s.toLimit.toNat 1 →
      ∃ t, (s.offer (tickEvents k)).run k = .next t ∧ t.phase = .awaitStart ∧ t.toCnt.toNat = k) ∧
    (k = max s.toLimit.toNat 1 →
      ∃ t, (s.offer (tickEvents k)).run k = .next t ∧ t.phase = .idle ∧ t.errcode = 0x02 ∧
        t.done = true ∧ t.err = true)

/-- Rules R174, R248, R250 and R254: a reply with the type the command expects, framed and escaped as
rules R106 and R109 say, whose body fits RXBUF, ends the transaction with success and leaves the body
in RXBUF, the payload from index 4 on (rule R255). -/
def Obligations.GoodReplySucceeds : Prop :=
  ∀ (s : State) (p : List Byte), s.cfg.wf = true → s.mem.wf = true → s.phase = .awaitStart →
    6 + p.length ≤ s.cfg.rxbuf →
    let head := [s.src, s.dest, (match s.op with | .read => 0x08 | .write => 0x03), s.reg] ++ p
    let c := crc16 head
    let reply := frame (head ++ [c.extractLsb' 8 8, c.extractLsb' 0 8])
    ∃ t, (s.offer (lineEvents reply ++ [.move .seq])).run (reply.length + 1) = .next t ∧
      t.phase = .idle ∧ t.done = true ∧ t.err = false ∧ t.errcode = 0x00 ∧ t.rxRes = 0x0000 ∧
      t.rxInfo = 0x0F ∧ t.rxBlen.toNat = 6 + p.length ∧
      ∀ i, i < p.length → p[i]? = some (t.rxbufAt (4 + i))

/-! ## Invariants -/

/-- The fields stay legal (rules R33, R36, R40, R41, R47, R51, R52). -/
def Obligations.StepKeepsLegal : Prop :=
  ∀ s t : State, s.Legal → step s = .next t → t.Legal

/-- While BUSY the results of the transaction before stay cleared (rules R207 and R394). -/
def Obligations.StepKeepsQuiet : Prop :=
  ∀ s t : State, s.Quiet → step s = .next t → t.Quiet

/-- The frame in flight stays the frame of the operands (rules R95 and R313). -/
def Obligations.StepKeepsFrozen : Prop :=
  ∀ s t : State, s.Frozen → step s = .next t → t.Frozen

/-- In a delimiter wait the count stays below the limit (rules R361 and R362). -/
def Obligations.StepKeepsTimed : Prop :=
  ∀ s t : State, s.Timed → step s = .next t → t.Timed

/-- The running CRC stays the CRC of the stored body (rules R245 and R248). -/
def Obligations.StepKeepsReceived : Prop :=
  ∀ s t : State, s.Received → step s = .next t → t.Received

/-- The state after reset meets the five invariants. -/
def Obligations.ResetMeetsTheInvariants : Prop :=
  State.reset.Legal ∧ State.reset.Quiet ∧ State.reset.Frozen ∧ State.reset.Timed ∧
    State.reset.Received

/-! ## Rules about the whole machine -/

/-- From rule R340: every instruction answers a next state in every state; a step that takes an agent's
move, the events of a cycle or, with nothing lined up, a free move answers a next state if the index is
in its frame; and no step of such a state faults. What a step can still refuse is encoded bytes lined
up from outside that are no instruction (notes/assumptions/5, 11, 13 and 15). -/
def Obligations.NothingFaults : Prop :=
  (∀ (i : Instr) (s : State), ∃ t, exec i s = .next t) ∧
  (∀ s : State, s.Frozen → (∀ f bs es, s.agenda ≠ .coded f bs :: es) → ∃ t, step s = .next t) ∧
  (∀ (s : State) (f : Format) (bs : List Byte) (es : List Event), s.agenda = .coded f bs :: es →
    f ≠ .rsp → (∃ p, decode f bs = .ok p) → ∃ t, step s = .next t) ∧
  (∀ (s : State) (r : Fault), s.Frozen → step s ≠ .fault r)

/-- From rule R348: the STC never retransmits. A step that is framing afterwards was framing the same
frame before, no further back in it, or is a command that starts a frame from IDLE. That REQ_READ and
REQ_WRITE are commands is the model's choice (notes/assumptions/10). -/
def Obligations.FramesStartOnlyByCommands : Prop :=
  ∀ s t : State, step s = .next t → t.phase = .framing →
    (s.phase = .framing ∧ t.txFrame = s.txFrame ∧ s.txIdx ≤ t.txIdx) ∨
    (s.phase = .idle ∧ t.txIdx = 0 ∧
      ∃ (i : Instr) (u : State), s.Fetches i u ∧ commandOf i = some t.op)

/-- Rules R50 and R4 (the state machine of the send and receive cycle): the phase changes only from
IDLE to FRAMING, FRAMING to AWAIT_START, AWAIT_START to RECV_BODY, RECV_BODY to VALIDATING, and from
any phase back to IDLE. -/
def Obligations.PhasesFollowTheCycle : Prop :=
  ∀ s t : State, step s = .next t → s.phase = t.phase ∨ t.phase = .idle ∨
    (s.phase = .idle ∧ t.phase = .framing) ∨ (s.phase = .framing ∧ t.phase = .awaitStart) ∨
    (s.phase = .awaitStart ∧ t.phase = .recvBody) ∨ (s.phase = .recvBody ∧ t.phase = .validating)

/-- From rule R56, what sets each flag. DONE and ERR: only a completion, by a tick, by VALIDATE or by a
command whose SRC is out of range. LINE_ERR: only LINE's framing error. REJ: only a rejection, of READ
or WRITE while BUSY, of a reserved CMD value, or of an operand write while BUSY. That the REQ rows are
commands and that VALIDATE is an RSP row are the model's readings (notes/assumptions/10 and 11). -/
def Obligations.FlagsAreSetOnlyByTheirCauses : Prop :=
  ∀ s t : State, step s = .next t →
    (s.done = false → t.done = true → ∃ c, CompletesWith s t c) ∧
    (s.err = false → t.err = true → ∃ c, c ≠ .none ∧ CompletesWith s t c) ∧
    (s.lineErr = false → t.lineErr = true →
      ∃ u, fetch s = .agent .framingError u ∧ t = { u with lineErr := true }) ∧
    (s.rej = false → t.rej = true →
      ∃ i u, s.Fetches i u ∧ Rejected i u ∧ t = { u with rej := true })

/-- From rule R392: CRC_ACC changes only by host writes to 0x0F, 0x10 and 0x11, TX_CRC only at the
acceptance of a command that is framed, RX_RES only at acceptance and at validation, and all three at
reset. That the REQ rows are commands and that VALIDATE is an RSP row are the model's readings
(notes/assumptions/10 and 11). -/
def Obligations.CrcRegistersChangeOnlyByTheirCauses : Prop :=
  ∀ s t : State, step s = .next t →
    (t.crcAcc ≠ s.crcAcc → (∃ u, fetch s = .agent .reset u) ∨
      ∃ i u d, s.Fetches i u ∧ (i = .wrCrcAccHi d ∨ i = .wrCrcAccLo d ∨ i = .wrCrcIn d)) ∧
    (t.txCrc ≠ s.txCrc → (∃ u, fetch s = .agent .reset u) ∨
      (s.phase = .idle ∧ t.phase = .framing ∧
        ∃ i u, s.Fetches i u ∧ commandOf i = some t.op)) ∧
    (t.rxRes ≠ s.rxRes → (∃ u, fetch s = .agent .reset u) ∨
      (s.phase = .idle ∧ ∃ i u, s.Fetches i u ∧ commandOf i = some t.op) ∨
      (s.phase = .validating ∧ t.phase = .idle ∧ t.rxRes = s.rxCrc ∧
        ∃ i u, s.Fetches i u ∧ i.format = .rsp))
end

