-- ==== Sys2Proof/Laws/Codec.lean ====
section
/-!
SUPPORT. The small lemmas of the codec's functions.
-/

namespace Sys2Proof.Machine

@[simp] theorem escape_nil : escape [] = [] := rfl

@[simp] theorem escape_cons (b : Byte) (s : List Byte) : escape (b :: s) = escByte b ++ escape s := rfl

theorem escape_append (s t : List Byte) : escape (s ++ t) = escape s ++ escape t :=
  List.flatMap_append

theorem isReserved_iff (b : Byte) : isReserved b = true ↔ b = 0x0A ∨ b = 0x0D ∨ b = 0x5E := by
  simp [isReserved, or_assoc]

theorem escByte_reserved {b : Byte} (h : isReserved b = true) : escByte b = [0x5E, b + 0x40] := by
  simp [escByte, h, escByteMark]

theorem escByte_literal {b : Byte} (h : isReserved b = false) : escByte b = [b] := by
  simp [escByte, h]

@[simp] theorem unescapeStep_pending (y : Byte) : unescapeStep true y = (false, some (y - 0x40)) := rfl

@[simp] theorem unescapeStep_esc : unescapeStep false 0x5E = (true, none) := rfl

theorem unescapeStep_literal {y : Byte} (h : y ≠ 0x5E) : unescapeStep false y = (false, some y) :=
  if_neg h

@[simp] theorem unescapeFrom_nil (e : Bool) : unescapeFrom e [] = ([], e) := rfl

theorem unescapeFrom_cons (e : Bool) (y : Byte) (t : List Byte) : unescapeFrom e (y :: t) =
    ((unescapeStep e y).2.toList ++ (unescapeFrom (unescapeStep e y).1 t).1,
      (unescapeFrom (unescapeStep e y).1 t).2) := rfl

/-- Decoding goes on where it stopped. -/
theorem unescapeFrom_append (e : Bool) (s t : List Byte) : unescapeFrom e (s ++ t) =
    ((unescapeFrom e s).1 ++ (unescapeFrom (unescapeFrom e s).2 t).1,
      (unescapeFrom (unescapeFrom e s).2 t).2) := by
  induction s generalizing e with
  | nil => simp
  | cons y s ih => simp [unescapeFrom_cons, ih, List.append_assoc]

@[simp] theorem crc16_nil : crc16 [] = 0x0000 := rfl

theorem crc16_append (s t : List Byte) : crc16 (s ++ t) = t.foldl crcUpd (crc16 s) :=
  List.foldl_append ..

@[simp] theorem crc16_concat (s : List Byte) (b : Byte) : crc16 (s ++ [b]) = crcUpd (crc16 s) b := by
  simp [crc16_append]

theorem pair_hi_lo (c : Word16) : pair (hiByte c) (loByte c) = c := by
  apply BitVec.eq_of_getLsbD_eq
  intro i hi
  simp only [pair, hiByte, loByte, BitVec.getLsbD_append, BitVec.getLsbD_extractLsb',
    BitVec.getLsbD_setWidth]
  by_cases h : i < 8
  · simp [h]
  · have h8 : 8 + (i - 8) = i := by omega
    have h9 : i - 8 < 8 := by omega
    simp [h, h8, h9]

@[simp] theorem hiByte_pair (h l : Byte) : hiByte (pair h l) = h := by
  apply BitVec.eq_of_getLsbD_eq
  intro i hi
  simp only [pair, hiByte, BitVec.getLsbD_append, BitVec.getLsbD_extractLsb']
  have h8 : ¬ 8 + i < 8 := by omega
  have h9 : 8 + i - 8 = i := by omega
  simp [h8, h9, hi]

@[simp] theorem loByte_pair (h l : Byte) : loByte (pair h l) = l := by
  apply BitVec.eq_of_getLsbD_eq
  intro i hi
  simp only [pair, loByte, BitVec.getLsbD_append, BitVec.getLsbD_setWidth]
  simp [hi]

end Sys2Proof.Machine
end

