-- ==== Sys2Proof/Laws/Memory.lean ====
section
/-!
SUPPORT. The memory: reading after writing, and the canonical form, which every operation keeps.
-/

namespace Sys2Proof.Machine

@[simp] theorem Memory.read_nil (a : Nat) : Memory.read [] a = Memory.unlisted := rfl

theorem Memory.read_cons (c : Host.Cell) (m : Memory) (a : Nat) :
    Memory.read (c :: m) a = if c.1 = a then c.2 else Memory.read m a := rfl

/-- An address below every listed one is unlisted. -/
theorem Memory.read_of_below {m : Memory} {a : Nat} (h : ∀ c ∈ m, a < c.1) :
    Memory.read m a = Memory.unlisted := by
  induction m with
  | nil => rfl
  | cons c m ih =>
    have hc : c.1 ≠ a := Nat.ne_of_gt (h c (List.mem_cons_self ..))
    simp only [Memory.read_cons, if_neg hc]
    exact ih fun d hd => h d (List.mem_cons_of_mem _ hd)

/-- The canonical form of a memory with a first entry. -/
theorem Memory.wf_cons {c : Host.Cell} {m : Memory} :
    Memory.wf (c :: m) = true ↔ c.2 ≠ Memory.unlisted ∧ (∀ d ∈ m, c.1 < d.1) ∧ Memory.wf m = true := by
  simp [Memory.wf, and_assoc]

/-- A write adds no address but its own. -/
theorem Memory.mem_write {m : Memory} {a : Nat} {v : Byte} {d : Host.Cell}
    (h : d ∈ Memory.write m a v) : d = (a, v) ∨ d ∈ m := by
  induction m with
  | nil =>
    simp only [Memory.write] at h
    split at h <;> simp_all
  | cons c m ih =>
    simp only [Memory.write] at h
    split at h
    · split at h
      · exact .inr h
      · simpa using h
    · split at h
      · split at h
        · exact .inr (List.mem_cons_of_mem _ h)
        · rcases List.mem_cons.1 h with h | h
          · exact .inl h
          · exact .inr (List.mem_cons_of_mem _ h)
      · rcases List.mem_cons.1 h with h | h
        · exact .inr (h ▸ List.mem_cons_self ..)
        · exact (ih h).imp_right (List.mem_cons_of_mem _)

/-- Writing keeps the canonical form. -/
theorem Memory.wf_write {m : Memory} {a : Nat} {v : Byte} (h : Memory.wf m = true) :
    Memory.wf (Memory.write m a v) = true := by
  induction m with
  | nil =>
    simp only [Memory.write]
    split
    · rfl
    · rename_i hv
      exact Memory.wf_cons.2 ⟨hv, by simp, rfl⟩
  | cons c m ih =>
    obtain ⟨hc, hlt, hm⟩ := Memory.wf_cons.1 h
    simp only [Memory.write]
    split
    · rename_i hac
      split
      · exact h
      · rename_i hv
        refine Memory.wf_cons.2 ⟨hv, fun d hd => ?_, h⟩
        rcases List.mem_cons.1 hd with rfl | hd
        · exact hac
        · exact Nat.lt_trans hac (hlt d hd)
    · split
      · rename_i hca
        split
        · exact hm
        · rename_i hv
          exact Memory.wf_cons.2 ⟨hv, fun d hd => hca ▸ hlt d hd, hm⟩
      · rename_i hac hca
        refine Memory.wf_cons.2 ⟨hc, fun d hd => ?_, ih hm⟩
        rcases Memory.mem_write hd with rfl | hd
        · exact Nat.lt_of_le_of_ne (Nat.not_lt.1 hac) hca
        · exact hlt d hd

/-- Reading the address just written gives the byte written. -/
theorem Memory.read_write_same {m : Memory} {a : Nat} {v : Byte} (h : Memory.wf m = true) :
    Memory.read (Memory.write m a v) a = v := by
  induction m with
  | nil =>
    simp only [Memory.write]
    split
    · rename_i hv; exact hv.symm
    · simp [Memory.read_cons]
  | cons c m ih =>
    obtain ⟨_, hlt, hm⟩ := Memory.wf_cons.1 h
    simp only [Memory.write]
    split
    · rename_i hac
      split
      · rename_i hv
        rw [hv]
        refine Memory.read_of_below fun d hd => ?_
        rcases List.mem_cons.1 hd with rfl | hd
        · exact hac
        · exact Nat.lt_trans hac (hlt d hd)
      · simp [Memory.read_cons]
    · split
      · rename_i hca
        split
        · rename_i hv
          rw [hv]
          exact Memory.read_of_below fun d hd => hca ▸ hlt d hd
        · simp [Memory.read_cons]
      · rename_i hca
        simp [Memory.read_cons, hca, ih hm]

/-- A write leaves every other address alone. -/
theorem Memory.read_write_other {m : Memory} {a b : Nat} {v : Byte} (hab : b ≠ a) :
    Memory.read (Memory.write m a v) b = Memory.read m b := by
  induction m with
  | nil =>
    simp only [Memory.write]
    split
    · rfl
    · simp [Memory.read_cons, Ne.symm hab]
  | cons c m ih =>
    simp only [Memory.write]
    split
    · split
      · rfl
      · simp [Memory.read_cons, Ne.symm hab]
    · split
      · rename_i hca
        have hcb : c.1 ≠ b := hca ▸ Ne.symm hab
        split <;> simp [Memory.read_cons, hcb, Ne.symm hab]
      · simp [Memory.read_cons, ih]

/-- Both laws at once, in a canonical memory. -/
theorem Memory.read_write {m : Memory} {a b : Nat} {v : Byte} (h : Memory.wf m = true) :
    Memory.read (Memory.write m a v) b = if b = a then v else Memory.read m b := by
  split
  · rename_i hab; subst hab; exact Memory.read_write_same h
  · rename_i hab; exact Memory.read_write_other hab

/-- Filling keeps the canonical form. -/
theorem Memory.wf_fill {m : Memory} {a : Nat} {f : Nat → Byte} (h : Memory.wf m = true) (n : Nat) :
    Memory.wf (Memory.fill m a f n) = true := by
  induction n with
  | zero => exact h
  | succ n ih => exact Memory.wf_write ih

/-- Filling adds only addresses of its range. -/
theorem Memory.mem_fill {m : Memory} {a : Nat} {f : Nat → Byte} {d : Host.Cell} {n : Nat}
    (h : d ∈ Memory.fill m a f n) : d ∈ m ∨ (a ≤ d.1 ∧ d.1 < a + n) := by
  induction n with
  | zero => exact .inl h
  | succ n ih =>
    rcases Memory.mem_write h with rfl | h
    · exact .inr ⟨by simp, by simp⟩
    · exact (ih h).imp_right fun h => ⟨h.1, by omega⟩

/-- What a filled memory reads as. -/
theorem Memory.read_fill {m : Memory} {a b : Nat} {f : Nat → Byte} (h : Memory.wf m = true) (n : Nat) :
    Memory.read (Memory.fill m a f n) b =
      if a ≤ b ∧ b < a + n then f (b - a) else Memory.read m b := by
  induction n with
  | zero =>
    have hb : ¬ (a ≤ b ∧ b < a + 0) := by omega
    rw [if_neg hb]; rfl
  | succ n ih =>
    simp only [Memory.fill]
    rw [Memory.read_write (Memory.wf_fill h n), ih]
    by_cases hb : b = a + n
    · subst hb
      have h1 : a ≤ a + n ∧ a + n < a + (n + 1) := by omega
      rw [if_pos rfl, if_pos h1, Nat.add_sub_cancel_left]
    · rw [if_neg hb]
      by_cases h1 : a ≤ b ∧ b < a + n
      · have h2 : a ≤ b ∧ b < a + (n + 1) := by omega
        rw [if_pos h1, if_pos h2]
      · have h2 : ¬ (a ≤ b ∧ b < a + (n + 1)) := by omega
        rw [if_neg h1, if_neg h2]

/-- The buffers after a RST step are in canonical form. -/
theorem Memory.wf_afterReset (p : Config.Params) (n : Nat) : Memory.wf (Memory.afterReset p n) = true :=
  Memory.wf_fill (Memory.wf_fill rfl _) _

/-- The state after reset has its memory in canonical form. -/
theorem reset_mem_wf : Memory.wf State.reset.mem = true := rfl

end Sys2Proof.Machine
end

