-- ==== Sys2Proof/Laws/State.lean ====
section
/-!
SUPPORT. What each update of the state leaves in each field: one lemma per field per update, true by
rfl, so that no later proof unfolds a record update.
-/

namespace Sys2Proof.Machine

/-! ### pushReply -/

@[simp] theorem pushReply_ctrl (s : State) (v : Byte) : (s.pushReply v).ctrl = s.ctrl := rfl
@[simp] theorem pushReply_done (s : State) (v : Byte) : (s.pushReply v).done = s.done := rfl
@[simp] theorem pushReply_err (s : State) (v : Byte) : (s.pushReply v).err = s.err := rfl
@[simp] theorem pushReply_rej (s : State) (v : Byte) : (s.pushReply v).rej = s.rej := rfl
@[simp] theorem pushReply_lineErr (s : State) (v : Byte) : (s.pushReply v).lineErr = s.lineErr := rfl
@[simp] theorem pushReply_errcode (s : State) (v : Byte) : (s.pushReply v).errcode = s.errcode := rfl
@[simp] theorem pushReply_dest (s : State) (v : Byte) : (s.pushReply v).dest = s.dest := rfl
@[simp] theorem pushReply_src (s : State) (v : Byte) : (s.pushReply v).src = s.src := rfl
@[simp] theorem pushReply_reg (s : State) (v : Byte) : (s.pushReply v).reg = s.reg := rfl
@[simp] theorem pushReply_txLen (s : State) (v : Byte) : (s.pushReply v).txLen = s.txLen := rfl
@[simp] theorem pushReply_rxBlen (s : State) (v : Byte) : (s.pushReply v).rxBlen = s.rxBlen := rfl
@[simp] theorem pushReply_txCrc (s : State) (v : Byte) : (s.pushReply v).txCrc = s.txCrc := rfl
@[simp] theorem pushReply_rxRes (s : State) (v : Byte) : (s.pushReply v).rxRes = s.rxRes := rfl
@[simp] theorem pushReply_toLimit (s : State) (v : Byte) : (s.pushReply v).toLimit = s.toLimit := rfl
@[simp] theorem pushReply_crcAcc (s : State) (v : Byte) : (s.pushReply v).crcAcc = s.crcAcc := rfl
@[simp] theorem pushReply_rxInfo (s : State) (v : Byte) : (s.pushReply v).rxInfo = s.rxInfo := rfl
@[simp] theorem pushReply_mem (s : State) (v : Byte) : (s.pushReply v).mem = s.mem := rfl
@[simp] theorem pushReply_phase (s : State) (v : Byte) : (s.pushReply v).phase = s.phase := rfl
@[simp] theorem pushReply_op (s : State) (v : Byte) : (s.pushReply v).op = s.op := rfl
@[simp] theorem pushReply_txFrame (s : State) (v : Byte) : (s.pushReply v).txFrame = s.txFrame := rfl
@[simp] theorem pushReply_txIdx (s : State) (v : Byte) : (s.pushReply v).txIdx = s.txIdx := rfl
@[simp] theorem pushReply_rxEsc (s : State) (v : Byte) : (s.pushReply v).rxEsc = s.rxEsc := rfl
@[simp] theorem pushReply_rxCnt (s : State) (v : Byte) : (s.pushReply v).rxCnt = s.rxCnt := rfl
@[simp] theorem pushReply_rxCrc (s : State) (v : Byte) : (s.pushReply v).rxCrc = s.rxCrc := rfl
@[simp] theorem pushReply_toCnt (s : State) (v : Byte) : (s.pushReply v).toCnt = s.toCnt := rfl
@[simp] theorem pushReply_utxBusy (s : State) (v : Byte) : (s.pushReply v).utxBusy = s.utxBusy := rfl
@[simp] theorem pushReply_utxByte (s : State) (v : Byte) : (s.pushReply v).utxByte = s.utxByte := rfl
@[simp] theorem pushReply_wireOut (s : State) (v : Byte) : (s.pushReply v).wireOut = s.wireOut := rfl
@[simp] theorem pushReply_busReplies (s : State) (v : Byte) : (s.pushReply v).busReplies = s.busReplies ++ [v] := rfl
@[simp] theorem pushReply_cfg (s : State) (v : Byte) : (s.pushReply v).cfg = s.cfg := rfl
@[simp] theorem pushReply_agenda (s : State) (v : Byte) : (s.pushReply v).agenda = s.agenda := rfl
@[simp] theorem pushReply_fresh (s : State) (v : Byte) : (s.pushReply v).fresh = s.fresh := rfl

/-! ### reject -/

@[simp] theorem reject_ctrl (s : State) : (s.reject).ctrl = s.ctrl := rfl
@[simp] theorem reject_done (s : State) : (s.reject).done = s.done := rfl
@[simp] theorem reject_err (s : State) : (s.reject).err = s.err := rfl
@[simp] theorem reject_rej (s : State) : (s.reject).rej = true := rfl
@[simp] theorem reject_lineErr (s : State) : (s.reject).lineErr = s.lineErr := rfl
@[simp] theorem reject_errcode (s : State) : (s.reject).errcode = s.errcode := rfl
@[simp] theorem reject_dest (s : State) : (s.reject).dest = s.dest := rfl
@[simp] theorem reject_src (s : State) : (s.reject).src = s.src := rfl
@[simp] theorem reject_reg (s : State) : (s.reject).reg = s.reg := rfl
@[simp] theorem reject_txLen (s : State) : (s.reject).txLen = s.txLen := rfl
@[simp] theorem reject_rxBlen (s : State) : (s.reject).rxBlen = s.rxBlen := rfl
@[simp] theorem reject_txCrc (s : State) : (s.reject).txCrc = s.txCrc := rfl
@[simp] theorem reject_rxRes (s : State) : (s.reject).rxRes = s.rxRes := rfl
@[simp] theorem reject_toLimit (s : State) : (s.reject).toLimit = s.toLimit := rfl
@[simp] theorem reject_crcAcc (s : State) : (s.reject).crcAcc = s.crcAcc := rfl
@[simp] theorem reject_rxInfo (s : State) : (s.reject).rxInfo = s.rxInfo := rfl
@[simp] theorem reject_mem (s : State) : (s.reject).mem = s.mem := rfl
@[simp] theorem reject_phase (s : State) : (s.reject).phase = s.phase := rfl
@[simp] theorem reject_op (s : State) : (s.reject).op = s.op := rfl
@[simp] theorem reject_txFrame (s : State) : (s.reject).txFrame = s.txFrame := rfl
@[simp] theorem reject_txIdx (s : State) : (s.reject).txIdx = s.txIdx := rfl
@[simp] theorem reject_rxEsc (s : State) : (s.reject).rxEsc = s.rxEsc := rfl
@[simp] theorem reject_rxCnt (s : State) : (s.reject).rxCnt = s.rxCnt := rfl
@[simp] theorem reject_rxCrc (s : State) : (s.reject).rxCrc = s.rxCrc := rfl
@[simp] theorem reject_toCnt (s : State) : (s.reject).toCnt = s.toCnt := rfl
@[simp] theorem reject_utxBusy (s : State) : (s.reject).utxBusy = s.utxBusy := rfl
@[simp] theorem reject_utxByte (s : State) : (s.reject).utxByte = s.utxByte := rfl
@[simp] theorem reject_wireOut (s : State) : (s.reject).wireOut = s.wireOut := rfl
@[simp] theorem reject_busReplies (s : State) : (s.reject).busReplies = s.busReplies := rfl
@[simp] theorem reject_cfg (s : State) : (s.reject).cfg = s.cfg := rfl
@[simp] theorem reject_agenda (s : State) : (s.reject).agenda = s.agenda := rfl
@[simp] theorem reject_fresh (s : State) : (s.reject).fresh = s.fresh := rfl

/-! ### setCtrl -/

@[simp] theorem setCtrl_ctrl (s : State) (d : Byte) : (s.setCtrl d).ctrl = ctrlKept d := rfl
@[simp] theorem setCtrl_done (s : State) (d : Byte) : (s.setCtrl d).done = s.done := rfl
@[simp] theorem setCtrl_err (s : State) (d : Byte) : (s.setCtrl d).err = s.err := rfl
@[simp] theorem setCtrl_rej (s : State) (d : Byte) : (s.setCtrl d).rej = s.rej := rfl
@[simp] theorem setCtrl_lineErr (s : State) (d : Byte) : (s.setCtrl d).lineErr = s.lineErr := rfl
@[simp] theorem setCtrl_errcode (s : State) (d : Byte) : (s.setCtrl d).errcode = s.errcode := rfl
@[simp] theorem setCtrl_dest (s : State) (d : Byte) : (s.setCtrl d).dest = s.dest := rfl
@[simp] theorem setCtrl_src (s : State) (d : Byte) : (s.setCtrl d).src = s.src := rfl
@[simp] theorem setCtrl_reg (s : State) (d : Byte) : (s.setCtrl d).reg = s.reg := rfl
@[simp] theorem setCtrl_txLen (s : State) (d : Byte) : (s.setCtrl d).txLen = s.txLen := rfl
@[simp] theorem setCtrl_rxBlen (s : State) (d : Byte) : (s.setCtrl d).rxBlen = s.rxBlen := rfl
@[simp] theorem setCtrl_txCrc (s : State) (d : Byte) : (s.setCtrl d).txCrc = s.txCrc := rfl
@[simp] theorem setCtrl_rxRes (s : State) (d : Byte) : (s.setCtrl d).rxRes = s.rxRes := rfl
@[simp] theorem setCtrl_toLimit (s : State) (d : Byte) : (s.setCtrl d).toLimit = s.toLimit := rfl
@[simp] theorem setCtrl_crcAcc (s : State) (d : Byte) : (s.setCtrl d).crcAcc = s.crcAcc := rfl
@[simp] theorem setCtrl_rxInfo (s : State) (d : Byte) : (s.setCtrl d).rxInfo = s.rxInfo := rfl
@[simp] theorem setCtrl_mem (s : State) (d : Byte) : (s.setCtrl d).mem = s.mem := rfl
@[simp] theorem setCtrl_phase (s : State) (d : Byte) : (s.setCtrl d).phase = s.phase := rfl
@[simp] theorem setCtrl_op (s : State) (d : Byte) : (s.setCtrl d).op = s.op := rfl
@[simp] theorem setCtrl_txFrame (s : State) (d : Byte) : (s.setCtrl d).txFrame = s.txFrame := rfl
@[simp] theorem setCtrl_txIdx (s : State) (d : Byte) : (s.setCtrl d).txIdx = s.txIdx := rfl
@[simp] theorem setCtrl_rxEsc (s : State) (d : Byte) : (s.setCtrl d).rxEsc = s.rxEsc := rfl
@[simp] theorem setCtrl_rxCnt (s : State) (d : Byte) : (s.setCtrl d).rxCnt = s.rxCnt := rfl
@[simp] theorem setCtrl_rxCrc (s : State) (d : Byte) : (s.setCtrl d).rxCrc = s.rxCrc := rfl
@[simp] theorem setCtrl_toCnt (s : State) (d : Byte) : (s.setCtrl d).toCnt = s.toCnt := rfl
@[simp] theorem setCtrl_utxBusy (s : State) (d : Byte) : (s.setCtrl d).utxBusy = s.utxBusy := rfl
@[simp] theorem setCtrl_utxByte (s : State) (d : Byte) : (s.setCtrl d).utxByte = s.utxByte := rfl
@[simp] theorem setCtrl_wireOut (s : State) (d : Byte) : (s.setCtrl d).wireOut = s.wireOut := rfl
@[simp] theorem setCtrl_busReplies (s : State) (d : Byte) : (s.setCtrl d).busReplies = s.busReplies := rfl
@[simp] theorem setCtrl_cfg (s : State) (d : Byte) : (s.setCtrl d).cfg = s.cfg := rfl
@[simp] theorem setCtrl_agenda (s : State) (d : Byte) : (s.setCtrl d).agenda = s.agenda := rfl
@[simp] theorem setCtrl_fresh (s : State) (d : Byte) : (s.setCtrl d).fresh = s.fresh := rfl

/-! ### clearFlags -/

@[simp] theorem clearFlags_ctrl (s : State) (d : Byte) : (s.clearFlags d).ctrl = s.ctrl := rfl
@[simp] theorem clearFlags_done (s : State) (d : Byte) : (s.clearFlags d).done = w1c s.done d 1 := rfl
@[simp] theorem clearFlags_err (s : State) (d : Byte) : (s.clearFlags d).err = w1c s.err d 2 := rfl
@[simp] theorem clearFlags_rej (s : State) (d : Byte) : (s.clearFlags d).rej = w1c s.rej d 3 := rfl
@[simp] theorem clearFlags_lineErr (s : State) (d : Byte) : (s.clearFlags d).lineErr = w1c s.lineErr d 4 := rfl
@[simp] theorem clearFlags_errcode (s : State) (d : Byte) : (s.clearFlags d).errcode = s.errcode := rfl
@[simp] theorem clearFlags_dest (s : State) (d : Byte) : (s.clearFlags d).dest = s.dest := rfl
@[simp] theorem clearFlags_src (s : State) (d : Byte) : (s.clearFlags d).src = s.src := rfl
@[simp] theorem clearFlags_reg (s : State) (d : Byte) : (s.clearFlags d).reg = s.reg := rfl
@[simp] theorem clearFlags_txLen (s : State) (d : Byte) : (s.clearFlags d).txLen = s.txLen := rfl
@[simp] theorem clearFlags_rxBlen (s : State) (d : Byte) : (s.clearFlags d).rxBlen = s.rxBlen := rfl
@[simp] theorem clearFlags_txCrc (s : State) (d : Byte) : (s.clearFlags d).txCrc = s.txCrc := rfl
@[simp] theorem clearFlags_rxRes (s : State) (d : Byte) : (s.clearFlags d).rxRes = s.rxRes := rfl
@[simp] theorem clearFlags_toLimit (s : State) (d : Byte) : (s.clearFlags d).toLimit = s.toLimit := rfl
@[simp] theorem clearFlags_crcAcc (s : State) (d : Byte) : (s.clearFlags d).crcAcc = s.crcAcc := rfl
@[simp] theorem clearFlags_rxInfo (s : State) (d : Byte) : (s.clearFlags d).rxInfo = s.rxInfo := rfl
@[simp] theorem clearFlags_mem (s : State) (d : Byte) : (s.clearFlags d).mem = s.mem := rfl
@[simp] theorem clearFlags_phase (s : State) (d : Byte) : (s.clearFlags d).phase = s.phase := rfl
@[simp] theorem clearFlags_op (s : State) (d : Byte) : (s.clearFlags d).op = s.op := rfl
@[simp] theorem clearFlags_txFrame (s : State) (d : Byte) : (s.clearFlags d).txFrame = s.txFrame := rfl
@[simp] theorem clearFlags_txIdx (s : State) (d : Byte) : (s.clearFlags d).txIdx = s.txIdx := rfl
@[simp] theorem clearFlags_rxEsc (s : State) (d : Byte) : (s.clearFlags d).rxEsc = s.rxEsc := rfl
@[simp] theorem clearFlags_rxCnt (s : State) (d : Byte) : (s.clearFlags d).rxCnt = s.rxCnt := rfl
@[simp] theorem clearFlags_rxCrc (s : State) (d : Byte) : (s.clearFlags d).rxCrc = s.rxCrc := rfl
@[simp] theorem clearFlags_toCnt (s : State) (d : Byte) : (s.clearFlags d).toCnt = s.toCnt := rfl
@[simp] theorem clearFlags_utxBusy (s : State) (d : Byte) : (s.clearFlags d).utxBusy = s.utxBusy := rfl
@[simp] theorem clearFlags_utxByte (s : State) (d : Byte) : (s.clearFlags d).utxByte = s.utxByte := rfl
@[simp] theorem clearFlags_wireOut (s : State) (d : Byte) : (s.clearFlags d).wireOut = s.wireOut := rfl
@[simp] theorem clearFlags_busReplies (s : State) (d : Byte) : (s.clearFlags d).busReplies = s.busReplies := rfl
@[simp] theorem clearFlags_cfg (s : State) (d : Byte) : (s.clearFlags d).cfg = s.cfg := rfl
@[simp] theorem clearFlags_agenda (s : State) (d : Byte) : (s.clearFlags d).agenda = s.agenda := rfl
@[simp] theorem clearFlags_fresh (s : State) (d : Byte) : (s.clearFlags d).fresh = s.fresh := rfl

/-! ### setDest -/

@[simp] theorem setDest_ctrl (s : State) (d : Byte) : (s.setDest d).ctrl = s.ctrl := rfl
@[simp] theorem setDest_done (s : State) (d : Byte) : (s.setDest d).done = s.done := rfl
@[simp] theorem setDest_err (s : State) (d : Byte) : (s.setDest d).err = s.err := rfl
@[simp] theorem setDest_rej (s : State) (d : Byte) : (s.setDest d).rej = s.rej := rfl
@[simp] theorem setDest_lineErr (s : State) (d : Byte) : (s.setDest d).lineErr = s.lineErr := rfl
@[simp] theorem setDest_errcode (s : State) (d : Byte) : (s.setDest d).errcode = s.errcode := rfl
@[simp] theorem setDest_dest (s : State) (d : Byte) : (s.setDest d).dest = d := rfl
@[simp] theorem setDest_src (s : State) (d : Byte) : (s.setDest d).src = s.src := rfl
@[simp] theorem setDest_reg (s : State) (d : Byte) : (s.setDest d).reg = s.reg := rfl
@[simp] theorem setDest_txLen (s : State) (d : Byte) : (s.setDest d).txLen = s.txLen := rfl
@[simp] theorem setDest_rxBlen (s : State) (d : Byte) : (s.setDest d).rxBlen = s.rxBlen := rfl
@[simp] theorem setDest_txCrc (s : State) (d : Byte) : (s.setDest d).txCrc = s.txCrc := rfl
@[simp] theorem setDest_rxRes (s : State) (d : Byte) : (s.setDest d).rxRes = s.rxRes := rfl
@[simp] theorem setDest_toLimit (s : State) (d : Byte) : (s.setDest d).toLimit = s.toLimit := rfl
@[simp] theorem setDest_crcAcc (s : State) (d : Byte) : (s.setDest d).crcAcc = s.crcAcc := rfl
@[simp] theorem setDest_rxInfo (s : State) (d : Byte) : (s.setDest d).rxInfo = s.rxInfo := rfl
@[simp] theorem setDest_mem (s : State) (d : Byte) : (s.setDest d).mem = s.mem := rfl
@[simp] theorem setDest_phase (s : State) (d : Byte) : (s.setDest d).phase = s.phase := rfl
@[simp] theorem setDest_op (s : State) (d : Byte) : (s.setDest d).op = s.op := rfl
@[simp] theorem setDest_txFrame (s : State) (d : Byte) : (s.setDest d).txFrame = s.txFrame := rfl
@[simp] theorem setDest_txIdx (s : State) (d : Byte) : (s.setDest d).txIdx = s.txIdx := rfl
@[simp] theorem setDest_rxEsc (s : State) (d : Byte) : (s.setDest d).rxEsc = s.rxEsc := rfl
@[simp] theorem setDest_rxCnt (s : State) (d : Byte) : (s.setDest d).rxCnt = s.rxCnt := rfl
@[simp] theorem setDest_rxCrc (s : State) (d : Byte) : (s.setDest d).rxCrc = s.rxCrc := rfl
@[simp] theorem setDest_toCnt (s : State) (d : Byte) : (s.setDest d).toCnt = s.toCnt := rfl
@[simp] theorem setDest_utxBusy (s : State) (d : Byte) : (s.setDest d).utxBusy = s.utxBusy := rfl
@[simp] theorem setDest_utxByte (s : State) (d : Byte) : (s.setDest d).utxByte = s.utxByte := rfl
@[simp] theorem setDest_wireOut (s : State) (d : Byte) : (s.setDest d).wireOut = s.wireOut := rfl
@[simp] theorem setDest_busReplies (s : State) (d : Byte) : (s.setDest d).busReplies = s.busReplies := rfl
@[simp] theorem setDest_cfg (s : State) (d : Byte) : (s.setDest d).cfg = s.cfg := rfl
@[simp] theorem setDest_agenda (s : State) (d : Byte) : (s.setDest d).agenda = s.agenda := rfl
@[simp] theorem setDest_fresh (s : State) (d : Byte) : (s.setDest d).fresh = s.fresh := rfl

/-! ### setSrc -/

@[simp] theorem setSrc_ctrl (s : State) (d : Byte) : (s.setSrc d).ctrl = s.ctrl := rfl
@[simp] theorem setSrc_done (s : State) (d : Byte) : (s.setSrc d).done = s.done := rfl
@[simp] theorem setSrc_err (s : State) (d : Byte) : (s.setSrc d).err = s.err := rfl
@[simp] theorem setSrc_rej (s : State) (d : Byte) : (s.setSrc d).rej = s.rej := rfl
@[simp] theorem setSrc_lineErr (s : State) (d : Byte) : (s.setSrc d).lineErr = s.lineErr := rfl
@[simp] theorem setSrc_errcode (s : State) (d : Byte) : (s.setSrc d).errcode = s.errcode := rfl
@[simp] theorem setSrc_dest (s : State) (d : Byte) : (s.setSrc d).dest = s.dest := rfl
@[simp] theorem setSrc_src (s : State) (d : Byte) : (s.setSrc d).src = d := rfl
@[simp] theorem setSrc_reg (s : State) (d : Byte) : (s.setSrc d).reg = s.reg := rfl
@[simp] theorem setSrc_txLen (s : State) (d : Byte) : (s.setSrc d).txLen = s.txLen := rfl
@[simp] theorem setSrc_rxBlen (s : State) (d : Byte) : (s.setSrc d).rxBlen = s.rxBlen := rfl
@[simp] theorem setSrc_txCrc (s : State) (d : Byte) : (s.setSrc d).txCrc = s.txCrc := rfl
@[simp] theorem setSrc_rxRes (s : State) (d : Byte) : (s.setSrc d).rxRes = s.rxRes := rfl
@[simp] theorem setSrc_toLimit (s : State) (d : Byte) : (s.setSrc d).toLimit = s.toLimit := rfl
@[simp] theorem setSrc_crcAcc (s : State) (d : Byte) : (s.setSrc d).crcAcc = s.crcAcc := rfl
@[simp] theorem setSrc_rxInfo (s : State) (d : Byte) : (s.setSrc d).rxInfo = s.rxInfo := rfl
@[simp] theorem setSrc_mem (s : State) (d : Byte) : (s.setSrc d).mem = s.mem := rfl
@[simp] theorem setSrc_phase (s : State) (d : Byte) : (s.setSrc d).phase = s.phase := rfl
@[simp] theorem setSrc_op (s : State) (d : Byte) : (s.setSrc d).op = s.op := rfl
@[simp] theorem setSrc_txFrame (s : State) (d : Byte) : (s.setSrc d).txFrame = s.txFrame := rfl
@[simp] theorem setSrc_txIdx (s : State) (d : Byte) : (s.setSrc d).txIdx = s.txIdx := rfl
@[simp] theorem setSrc_rxEsc (s : State) (d : Byte) : (s.setSrc d).rxEsc = s.rxEsc := rfl
@[simp] theorem setSrc_rxCnt (s : State) (d : Byte) : (s.setSrc d).rxCnt = s.rxCnt := rfl
@[simp] theorem setSrc_rxCrc (s : State) (d : Byte) : (s.setSrc d).rxCrc = s.rxCrc := rfl
@[simp] theorem setSrc_toCnt (s : State) (d : Byte) : (s.setSrc d).toCnt = s.toCnt := rfl
@[simp] theorem setSrc_utxBusy (s : State) (d : Byte) : (s.setSrc d).utxBusy = s.utxBusy := rfl
@[simp] theorem setSrc_utxByte (s : State) (d : Byte) : (s.setSrc d).utxByte = s.utxByte := rfl
@[simp] theorem setSrc_wireOut (s : State) (d : Byte) : (s.setSrc d).wireOut = s.wireOut := rfl
@[simp] theorem setSrc_busReplies (s : State) (d : Byte) : (s.setSrc d).busReplies = s.busReplies := rfl
@[simp] theorem setSrc_cfg (s : State) (d : Byte) : (s.setSrc d).cfg = s.cfg := rfl
@[simp] theorem setSrc_agenda (s : State) (d : Byte) : (s.setSrc d).agenda = s.agenda := rfl
@[simp] theorem setSrc_fresh (s : State) (d : Byte) : (s.setSrc d).fresh = s.fresh := rfl

/-! ### setReg -/

@[simp] theorem setReg_ctrl (s : State) (d : Byte) : (s.setReg d).ctrl = s.ctrl := rfl
@[simp] theorem setReg_done (s : State) (d : Byte) : (s.setReg d).done = s.done := rfl
@[simp] theorem setReg_err (s : State) (d : Byte) : (s.setReg d).err = s.err := rfl
@[simp] theorem setReg_rej (s : State) (d : Byte) : (s.setReg d).rej = s.rej := rfl
@[simp] theorem setReg_lineErr (s : State) (d : Byte) : (s.setReg d).lineErr = s.lineErr := rfl
@[simp] theorem setReg_errcode (s : State) (d : Byte) : (s.setReg d).errcode = s.errcode := rfl
@[simp] theorem setReg_dest (s : State) (d : Byte) : (s.setReg d).dest = s.dest := rfl
@[simp] theorem setReg_src (s : State) (d : Byte) : (s.setReg d).src = s.src := rfl
@[simp] theorem setReg_reg (s : State) (d : Byte) : (s.setReg d).reg = d := rfl
@[simp] theorem setReg_txLen (s : State) (d : Byte) : (s.setReg d).txLen = s.txLen := rfl
@[simp] theorem setReg_rxBlen (s : State) (d : Byte) : (s.setReg d).rxBlen = s.rxBlen := rfl
@[simp] theorem setReg_txCrc (s : State) (d : Byte) : (s.setReg d).txCrc = s.txCrc := rfl
@[simp] theorem setReg_rxRes (s : State) (d : Byte) : (s.setReg d).rxRes = s.rxRes := rfl
@[simp] theorem setReg_toLimit (s : State) (d : Byte) : (s.setReg d).toLimit = s.toLimit := rfl
@[simp] theorem setReg_crcAcc (s : State) (d : Byte) : (s.setReg d).crcAcc = s.crcAcc := rfl
@[simp] theorem setReg_rxInfo (s : State) (d : Byte) : (s.setReg d).rxInfo = s.rxInfo := rfl
@[simp] theorem setReg_mem (s : State) (d : Byte) : (s.setReg d).mem = s.mem := rfl
@[simp] theorem setReg_phase (s : State) (d : Byte) : (s.setReg d).phase = s.phase := rfl
@[simp] theorem setReg_op (s : State) (d : Byte) : (s.setReg d).op = s.op := rfl
@[simp] theorem setReg_txFrame (s : State) (d : Byte) : (s.setReg d).txFrame = s.txFrame := rfl
@[simp] theorem setReg_txIdx (s : State) (d : Byte) : (s.setReg d).txIdx = s.txIdx := rfl
@[simp] theorem setReg_rxEsc (s : State) (d : Byte) : (s.setReg d).rxEsc = s.rxEsc := rfl
@[simp] theorem setReg_rxCnt (s : State) (d : Byte) : (s.setReg d).rxCnt = s.rxCnt := rfl
@[simp] theorem setReg_rxCrc (s : State) (d : Byte) : (s.setReg d).rxCrc = s.rxCrc := rfl
@[simp] theorem setReg_toCnt (s : State) (d : Byte) : (s.setReg d).toCnt = s.toCnt := rfl
@[simp] theorem setReg_utxBusy (s : State) (d : Byte) : (s.setReg d).utxBusy = s.utxBusy := rfl
@[simp] theorem setReg_utxByte (s : State) (d : Byte) : (s.setReg d).utxByte = s.utxByte := rfl
@[simp] theorem setReg_wireOut (s : State) (d : Byte) : (s.setReg d).wireOut = s.wireOut := rfl
@[simp] theorem setReg_busReplies (s : State) (d : Byte) : (s.setReg d).busReplies = s.busReplies := rfl
@[simp] theorem setReg_cfg (s : State) (d : Byte) : (s.setReg d).cfg = s.cfg := rfl
@[simp] theorem setReg_agenda (s : State) (d : Byte) : (s.setReg d).agenda = s.agenda := rfl
@[simp] theorem setReg_fresh (s : State) (d : Byte) : (s.setReg d).fresh = s.fresh := rfl

/-! ### setTxLen -/

@[simp] theorem setTxLen_ctrl (s : State) (d : Byte) : (s.setTxLen d).ctrl = s.ctrl := rfl
@[simp] theorem setTxLen_done (s : State) (d : Byte) : (s.setTxLen d).done = s.done := rfl
@[simp] theorem setTxLen_err (s : State) (d : Byte) : (s.setTxLen d).err = s.err := rfl
@[simp] theorem setTxLen_rej (s : State) (d : Byte) : (s.setTxLen d).rej = s.rej := rfl
@[simp] theorem setTxLen_lineErr (s : State) (d : Byte) : (s.setTxLen d).lineErr = s.lineErr := rfl
@[simp] theorem setTxLen_errcode (s : State) (d : Byte) : (s.setTxLen d).errcode = s.errcode := rfl
@[simp] theorem setTxLen_dest (s : State) (d : Byte) : (s.setTxLen d).dest = s.dest := rfl
@[simp] theorem setTxLen_src (s : State) (d : Byte) : (s.setTxLen d).src = s.src := rfl
@[simp] theorem setTxLen_reg (s : State) (d : Byte) : (s.setTxLen d).reg = s.reg := rfl
@[simp] theorem setTxLen_txLen (s : State) (d : Byte) : (s.setTxLen d).txLen = s.txLenKept d := rfl
@[simp] theorem setTxLen_rxBlen (s : State) (d : Byte) : (s.setTxLen d).rxBlen = s.rxBlen := rfl
@[simp] theorem setTxLen_txCrc (s : State) (d : Byte) : (s.setTxLen d).txCrc = s.txCrc := rfl
@[simp] theorem setTxLen_rxRes (s : State) (d : Byte) : (s.setTxLen d).rxRes = s.rxRes := rfl
@[simp] theorem setTxLen_toLimit (s : State) (d : Byte) : (s.setTxLen d).toLimit = s.toLimit := rfl
@[simp] theorem setTxLen_crcAcc (s : State) (d : Byte) : (s.setTxLen d).crcAcc = s.crcAcc := rfl
@[simp] theorem setTxLen_rxInfo (s : State) (d : Byte) : (s.setTxLen d).rxInfo = s.rxInfo := rfl
@[simp] theorem setTxLen_mem (s : State) (d : Byte) : (s.setTxLen d).mem = s.mem := rfl
@[simp] theorem setTxLen_phase (s : State) (d : Byte) : (s.setTxLen d).phase = s.phase := rfl
@[simp] theorem setTxLen_op (s : State) (d : Byte) : (s.setTxLen d).op = s.op := rfl
@[simp] theorem setTxLen_txFrame (s : State) (d : Byte) : (s.setTxLen d).txFrame = s.txFrame := rfl
@[simp] theorem setTxLen_txIdx (s : State) (d : Byte) : (s.setTxLen d).txIdx = s.txIdx := rfl
@[simp] theorem setTxLen_rxEsc (s : State) (d : Byte) : (s.setTxLen d).rxEsc = s.rxEsc := rfl
@[simp] theorem setTxLen_rxCnt (s : State) (d : Byte) : (s.setTxLen d).rxCnt = s.rxCnt := rfl
@[simp] theorem setTxLen_rxCrc (s : State) (d : Byte) : (s.setTxLen d).rxCrc = s.rxCrc := rfl
@[simp] theorem setTxLen_toCnt (s : State) (d : Byte) : (s.setTxLen d).toCnt = s.toCnt := rfl
@[simp] theorem setTxLen_utxBusy (s : State) (d : Byte) : (s.setTxLen d).utxBusy = s.utxBusy := rfl
@[simp] theorem setTxLen_utxByte (s : State) (d : Byte) : (s.setTxLen d).utxByte = s.utxByte := rfl
@[simp] theorem setTxLen_wireOut (s : State) (d : Byte) : (s.setTxLen d).wireOut = s.wireOut := rfl
@[simp] theorem setTxLen_busReplies (s : State) (d : Byte) : (s.setTxLen d).busReplies = s.busReplies := rfl
@[simp] theorem setTxLen_cfg (s : State) (d : Byte) : (s.setTxLen d).cfg = s.cfg := rfl
@[simp] theorem setTxLen_agenda (s : State) (d : Byte) : (s.setTxLen d).agenda = s.agenda := rfl
@[simp] theorem setTxLen_fresh (s : State) (d : Byte) : (s.setTxLen d).fresh = s.fresh := rfl

/-! ### setToLimitHi -/

@[simp] theorem setToLimitHi_ctrl (s : State) (d : Byte) : (s.setToLimitHi d).ctrl = s.ctrl := rfl
@[simp] theorem setToLimitHi_done (s : State) (d : Byte) : (s.setToLimitHi d).done = s.done := rfl
@[simp] theorem setToLimitHi_err (s : State) (d : Byte) : (s.setToLimitHi d).err = s.err := rfl
@[simp] theorem setToLimitHi_rej (s : State) (d : Byte) : (s.setToLimitHi d).rej = s.rej := rfl
@[simp] theorem setToLimitHi_lineErr (s : State) (d : Byte) : (s.setToLimitHi d).lineErr = s.lineErr := rfl
@[simp] theorem setToLimitHi_errcode (s : State) (d : Byte) : (s.setToLimitHi d).errcode = s.errcode := rfl
@[simp] theorem setToLimitHi_dest (s : State) (d : Byte) : (s.setToLimitHi d).dest = s.dest := rfl
@[simp] theorem setToLimitHi_src (s : State) (d : Byte) : (s.setToLimitHi d).src = s.src := rfl
@[simp] theorem setToLimitHi_reg (s : State) (d : Byte) : (s.setToLimitHi d).reg = s.reg := rfl
@[simp] theorem setToLimitHi_txLen (s : State) (d : Byte) : (s.setToLimitHi d).txLen = s.txLen := rfl
@[simp] theorem setToLimitHi_rxBlen (s : State) (d : Byte) : (s.setToLimitHi d).rxBlen = s.rxBlen := rfl
@[simp] theorem setToLimitHi_txCrc (s : State) (d : Byte) : (s.setToLimitHi d).txCrc = s.txCrc := rfl
@[simp] theorem setToLimitHi_rxRes (s : State) (d : Byte) : (s.setToLimitHi d).rxRes = s.rxRes := rfl
@[simp] theorem setToLimitHi_toLimit (s : State) (d : Byte) : (s.setToLimitHi d).toLimit = pair d (loByte s.toLimit) := rfl
@[simp] theorem setToLimitHi_crcAcc (s : State) (d : Byte) : (s.setToLimitHi d).crcAcc = s.crcAcc := rfl
@[simp] theorem setToLimitHi_rxInfo (s : State) (d : Byte) : (s.setToLimitHi d).rxInfo = s.rxInfo := rfl
@[simp] theorem setToLimitHi_mem (s : State) (d : Byte) : (s.setToLimitHi d).mem = s.mem := rfl
@[simp] theorem setToLimitHi_phase (s : State) (d : Byte) : (s.setToLimitHi d).phase = s.phase := rfl
@[simp] theorem setToLimitHi_op (s : State) (d : Byte) : (s.setToLimitHi d).op = s.op := rfl
@[simp] theorem setToLimitHi_txFrame (s : State) (d : Byte) : (s.setToLimitHi d).txFrame = s.txFrame := rfl
@[simp] theorem setToLimitHi_txIdx (s : State) (d : Byte) : (s.setToLimitHi d).txIdx = s.txIdx := rfl
@[simp] theorem setToLimitHi_rxEsc (s : State) (d : Byte) : (s.setToLimitHi d).rxEsc = s.rxEsc := rfl
@[simp] theorem setToLimitHi_rxCnt (s : State) (d : Byte) : (s.setToLimitHi d).rxCnt = s.rxCnt := rfl
@[simp] theorem setToLimitHi_rxCrc (s : State) (d : Byte) : (s.setToLimitHi d).rxCrc = s.rxCrc := rfl
@[simp] theorem setToLimitHi_toCnt (s : State) (d : Byte) : (s.setToLimitHi d).toCnt = s.toCnt := rfl
@[simp] theorem setToLimitHi_utxBusy (s : State) (d : Byte) : (s.setToLimitHi d).utxBusy = s.utxBusy := rfl
@[simp] theorem setToLimitHi_utxByte (s : State) (d : Byte) : (s.setToLimitHi d).utxByte = s.utxByte := rfl
@[simp] theorem setToLimitHi_wireOut (s : State) (d : Byte) : (s.setToLimitHi d).wireOut = s.wireOut := rfl
@[simp] theorem setToLimitHi_busReplies (s : State) (d : Byte) : (s.setToLimitHi d).busReplies = s.busReplies := rfl
@[simp] theorem setToLimitHi_cfg (s : State) (d : Byte) : (s.setToLimitHi d).cfg = s.cfg := rfl
@[simp] theorem setToLimitHi_agenda (s : State) (d : Byte) : (s.setToLimitHi d).agenda = s.agenda := rfl
@[simp] theorem setToLimitHi_fresh (s : State) (d : Byte) : (s.setToLimitHi d).fresh = s.fresh := rfl

/-! ### setToLimitLo -/

@[simp] theorem setToLimitLo_ctrl (s : State) (d : Byte) : (s.setToLimitLo d).ctrl = s.ctrl := rfl
@[simp] theorem setToLimitLo_done (s : State) (d : Byte) : (s.setToLimitLo d).done = s.done := rfl
@[simp] theorem setToLimitLo_err (s : State) (d : Byte) : (s.setToLimitLo d).err = s.err := rfl
@[simp] theorem setToLimitLo_rej (s : State) (d : Byte) : (s.setToLimitLo d).rej = s.rej := rfl
@[simp] theorem setToLimitLo_lineErr (s : State) (d : Byte) : (s.setToLimitLo d).lineErr = s.lineErr := rfl
@[simp] theorem setToLimitLo_errcode (s : State) (d : Byte) : (s.setToLimitLo d).errcode = s.errcode := rfl
@[simp] theorem setToLimitLo_dest (s : State) (d : Byte) : (s.setToLimitLo d).dest = s.dest := rfl
@[simp] theorem setToLimitLo_src (s : State) (d : Byte) : (s.setToLimitLo d).src = s.src := rfl
@[simp] theorem setToLimitLo_reg (s : State) (d : Byte) : (s.setToLimitLo d).reg = s.reg := rfl
@[simp] theorem setToLimitLo_txLen (s : State) (d : Byte) : (s.setToLimitLo d).txLen = s.txLen := rfl
@[simp] theorem setToLimitLo_rxBlen (s : State) (d : Byte) : (s.setToLimitLo d).rxBlen = s.rxBlen := rfl
@[simp] theorem setToLimitLo_txCrc (s : State) (d : Byte) : (s.setToLimitLo d).txCrc = s.txCrc := rfl
@[simp] theorem setToLimitLo_rxRes (s : State) (d : Byte) : (s.setToLimitLo d).rxRes = s.rxRes := rfl
@[simp] theorem setToLimitLo_toLimit (s : State) (d : Byte) : (s.setToLimitLo d).toLimit = pair (hiByte s.toLimit) d := rfl
@[simp] theorem setToLimitLo_crcAcc (s : State) (d : Byte) : (s.setToLimitLo d).crcAcc = s.crcAcc := rfl
@[simp] theorem setToLimitLo_rxInfo (s : State) (d : Byte) : (s.setToLimitLo d).rxInfo = s.rxInfo := rfl
@[simp] theorem setToLimitLo_mem (s : State) (d : Byte) : (s.setToLimitLo d).mem = s.mem := rfl
@[simp] theorem setToLimitLo_phase (s : State) (d : Byte) : (s.setToLimitLo d).phase = s.phase := rfl
@[simp] theorem setToLimitLo_op (s : State) (d : Byte) : (s.setToLimitLo d).op = s.op := rfl
@[simp] theorem setToLimitLo_txFrame (s : State) (d : Byte) : (s.setToLimitLo d).txFrame = s.txFrame := rfl
@[simp] theorem setToLimitLo_txIdx (s : State) (d : Byte) : (s.setToLimitLo d).txIdx = s.txIdx := rfl
@[simp] theorem setToLimitLo_rxEsc (s : State) (d : Byte) : (s.setToLimitLo d).rxEsc = s.rxEsc := rfl
@[simp] theorem setToLimitLo_rxCnt (s : State) (d : Byte) : (s.setToLimitLo d).rxCnt = s.rxCnt := rfl
@[simp] theorem setToLimitLo_rxCrc (s : State) (d : Byte) : (s.setToLimitLo d).rxCrc = s.rxCrc := rfl
@[simp] theorem setToLimitLo_toCnt (s : State) (d : Byte) : (s.setToLimitLo d).toCnt = s.toCnt := rfl
@[simp] theorem setToLimitLo_utxBusy (s : State) (d : Byte) : (s.setToLimitLo d).utxBusy = s.utxBusy := rfl
@[simp] theorem setToLimitLo_utxByte (s : State) (d : Byte) : (s.setToLimitLo d).utxByte = s.utxByte := rfl
@[simp] theorem setToLimitLo_wireOut (s : State) (d : Byte) : (s.setToLimitLo d).wireOut = s.wireOut := rfl
@[simp] theorem setToLimitLo_busReplies (s : State) (d : Byte) : (s.setToLimitLo d).busReplies = s.busReplies := rfl
@[simp] theorem setToLimitLo_cfg (s : State) (d : Byte) : (s.setToLimitLo d).cfg = s.cfg := rfl
@[simp] theorem setToLimitLo_agenda (s : State) (d : Byte) : (s.setToLimitLo d).agenda = s.agenda := rfl
@[simp] theorem setToLimitLo_fresh (s : State) (d : Byte) : (s.setToLimitLo d).fresh = s.fresh := rfl

/-! ### setTxbuf -/

@[simp] theorem setTxbuf_ctrl (s : State) (i : Nat) (d : Byte) : (s.setTxbuf i d).ctrl = s.ctrl := rfl
@[simp] theorem setTxbuf_done (s : State) (i : Nat) (d : Byte) : (s.setTxbuf i d).done = s.done := rfl
@[simp] theorem setTxbuf_err (s : State) (i : Nat) (d : Byte) : (s.setTxbuf i d).err = s.err := rfl
@[simp] theorem setTxbuf_rej (s : State) (i : Nat) (d : Byte) : (s.setTxbuf i d).rej = s.rej := rfl
@[simp] theorem setTxbuf_lineErr (s : State) (i : Nat) (d : Byte) : (s.setTxbuf i d).lineErr = s.lineErr := rfl
@[simp] theorem setTxbuf_errcode (s : State) (i : Nat) (d : Byte) : (s.setTxbuf i d).errcode = s.errcode := rfl
@[simp] theorem setTxbuf_dest (s : State) (i : Nat) (d : Byte) : (s.setTxbuf i d).dest = s.dest := rfl
@[simp] theorem setTxbuf_src (s : State) (i : Nat) (d : Byte) : (s.setTxbuf i d).src = s.src := rfl
@[simp] theorem setTxbuf_reg (s : State) (i : Nat) (d : Byte) : (s.setTxbuf i d).reg = s.reg := rfl
@[simp] theorem setTxbuf_txLen (s : State) (i : Nat) (d : Byte) : (s.setTxbuf i d).txLen = s.txLen := rfl
@[simp] theorem setTxbuf_rxBlen (s : State) (i : Nat) (d : Byte) : (s.setTxbuf i d).rxBlen = s.rxBlen := rfl
@[simp] theorem setTxbuf_txCrc (s : State) (i : Nat) (d : Byte) : (s.setTxbuf i d).txCrc = s.txCrc := rfl
@[simp] theorem setTxbuf_rxRes (s : State) (i : Nat) (d : Byte) : (s.setTxbuf i d).rxRes = s.rxRes := rfl
@[simp] theorem setTxbuf_toLimit (s : State) (i : Nat) (d : Byte) : (s.setTxbuf i d).toLimit = s.toLimit := rfl
@[simp] theorem setTxbuf_crcAcc (s : State) (i : Nat) (d : Byte) : (s.setTxbuf i d).crcAcc = s.crcAcc := rfl
@[simp] theorem setTxbuf_rxInfo (s : State) (i : Nat) (d : Byte) : (s.setTxbuf i d).rxInfo = s.rxInfo := rfl
@[simp] theorem setTxbuf_mem (s : State) (i : Nat) (d : Byte) : (s.setTxbuf i d).mem = s.mem.write (txbufBase + i) d := rfl
@[simp] theorem setTxbuf_phase (s : State) (i : Nat) (d : Byte) : (s.setTxbuf i d).phase = s.phase := rfl
@[simp] theorem setTxbuf_op (s : State) (i : Nat) (d : Byte) : (s.setTxbuf i d).op = s.op := rfl
@[simp] theorem setTxbuf_txFrame (s : State) (i : Nat) (d : Byte) : (s.setTxbuf i d).txFrame = s.txFrame := rfl
@[simp] theorem setTxbuf_txIdx (s : State) (i : Nat) (d : Byte) : (s.setTxbuf i d).txIdx = s.txIdx := rfl
@[simp] theorem setTxbuf_rxEsc (s : State) (i : Nat) (d : Byte) : (s.setTxbuf i d).rxEsc = s.rxEsc := rfl
@[simp] theorem setTxbuf_rxCnt (s : State) (i : Nat) (d : Byte) : (s.setTxbuf i d).rxCnt = s.rxCnt := rfl
@[simp] theorem setTxbuf_rxCrc (s : State) (i : Nat) (d : Byte) : (s.setTxbuf i d).rxCrc = s.rxCrc := rfl
@[simp] theorem setTxbuf_toCnt (s : State) (i : Nat) (d : Byte) : (s.setTxbuf i d).toCnt = s.toCnt := rfl
@[simp] theorem setTxbuf_utxBusy (s : State) (i : Nat) (d : Byte) : (s.setTxbuf i d).utxBusy = s.utxBusy := rfl
@[simp] theorem setTxbuf_utxByte (s : State) (i : Nat) (d : Byte) : (s.setTxbuf i d).utxByte = s.utxByte := rfl
@[simp] theorem setTxbuf_wireOut (s : State) (i : Nat) (d : Byte) : (s.setTxbuf i d).wireOut = s.wireOut := rfl
@[simp] theorem setTxbuf_busReplies (s : State) (i : Nat) (d : Byte) : (s.setTxbuf i d).busReplies = s.busReplies := rfl
@[simp] theorem setTxbuf_cfg (s : State) (i : Nat) (d : Byte) : (s.setTxbuf i d).cfg = s.cfg := rfl
@[simp] theorem setTxbuf_agenda (s : State) (i : Nat) (d : Byte) : (s.setTxbuf i d).agenda = s.agenda := rfl
@[simp] theorem setTxbuf_fresh (s : State) (i : Nat) (d : Byte) : (s.setTxbuf i d).fresh = s.fresh := rfl

/-! ### setCrcAcc -/

@[simp] theorem setCrcAcc_ctrl (s : State) (c : Word16) : (s.setCrcAcc c).ctrl = s.ctrl := rfl
@[simp] theorem setCrcAcc_done (s : State) (c : Word16) : (s.setCrcAcc c).done = s.done := rfl
@[simp] theorem setCrcAcc_err (s : State) (c : Word16) : (s.setCrcAcc c).err = s.err := rfl
@[simp] theorem setCrcAcc_rej (s : State) (c : Word16) : (s.setCrcAcc c).rej = s.rej := rfl
@[simp] theorem setCrcAcc_lineErr (s : State) (c : Word16) : (s.setCrcAcc c).lineErr = s.lineErr := rfl
@[simp] theorem setCrcAcc_errcode (s : State) (c : Word16) : (s.setCrcAcc c).errcode = s.errcode := rfl
@[simp] theorem setCrcAcc_dest (s : State) (c : Word16) : (s.setCrcAcc c).dest = s.dest := rfl
@[simp] theorem setCrcAcc_src (s : State) (c : Word16) : (s.setCrcAcc c).src = s.src := rfl
@[simp] theorem setCrcAcc_reg (s : State) (c : Word16) : (s.setCrcAcc c).reg = s.reg := rfl
@[simp] theorem setCrcAcc_txLen (s : State) (c : Word16) : (s.setCrcAcc c).txLen = s.txLen := rfl
@[simp] theorem setCrcAcc_rxBlen (s : State) (c : Word16) : (s.setCrcAcc c).rxBlen = s.rxBlen := rfl
@[simp] theorem setCrcAcc_txCrc (s : State) (c : Word16) : (s.setCrcAcc c).txCrc = s.txCrc := rfl
@[simp] theorem setCrcAcc_rxRes (s : State) (c : Word16) : (s.setCrcAcc c).rxRes = s.rxRes := rfl
@[simp] theorem setCrcAcc_toLimit (s : State) (c : Word16) : (s.setCrcAcc c).toLimit = s.toLimit := rfl
@[simp] theorem setCrcAcc_crcAcc (s : State) (c : Word16) : (s.setCrcAcc c).crcAcc = c := rfl
@[simp] theorem setCrcAcc_rxInfo (s : State) (c : Word16) : (s.setCrcAcc c).rxInfo = s.rxInfo := rfl
@[simp] theorem setCrcAcc_mem (s : State) (c : Word16) : (s.setCrcAcc c).mem = s.mem := rfl
@[simp] theorem setCrcAcc_phase (s : State) (c : Word16) : (s.setCrcAcc c).phase = s.phase := rfl
@[simp] theorem setCrcAcc_op (s : State) (c : Word16) : (s.setCrcAcc c).op = s.op := rfl
@[simp] theorem setCrcAcc_txFrame (s : State) (c : Word16) : (s.setCrcAcc c).txFrame = s.txFrame := rfl
@[simp] theorem setCrcAcc_txIdx (s : State) (c : Word16) : (s.setCrcAcc c).txIdx = s.txIdx := rfl
@[simp] theorem setCrcAcc_rxEsc (s : State) (c : Word16) : (s.setCrcAcc c).rxEsc = s.rxEsc := rfl
@[simp] theorem setCrcAcc_rxCnt (s : State) (c : Word16) : (s.setCrcAcc c).rxCnt = s.rxCnt := rfl
@[simp] theorem setCrcAcc_rxCrc (s : State) (c : Word16) : (s.setCrcAcc c).rxCrc = s.rxCrc := rfl
@[simp] theorem setCrcAcc_toCnt (s : State) (c : Word16) : (s.setCrcAcc c).toCnt = s.toCnt := rfl
@[simp] theorem setCrcAcc_utxBusy (s : State) (c : Word16) : (s.setCrcAcc c).utxBusy = s.utxBusy := rfl
@[simp] theorem setCrcAcc_utxByte (s : State) (c : Word16) : (s.setCrcAcc c).utxByte = s.utxByte := rfl
@[simp] theorem setCrcAcc_wireOut (s : State) (c : Word16) : (s.setCrcAcc c).wireOut = s.wireOut := rfl
@[simp] theorem setCrcAcc_busReplies (s : State) (c : Word16) : (s.setCrcAcc c).busReplies = s.busReplies := rfl
@[simp] theorem setCrcAcc_cfg (s : State) (c : Word16) : (s.setCrcAcc c).cfg = s.cfg := rfl
@[simp] theorem setCrcAcc_agenda (s : State) (c : Word16) : (s.setCrcAcc c).agenda = s.agenda := rfl
@[simp] theorem setCrcAcc_fresh (s : State) (c : Word16) : (s.setCrcAcc c).fresh = s.fresh := rfl

/-! ### complete -/

@[simp] theorem complete_ctrl (s : State) (c : ErrCode) : (s.complete c).ctrl = s.ctrl := rfl
@[simp] theorem complete_done (s : State) (c : ErrCode) : (s.complete c).done = true := rfl
@[simp] theorem complete_err (s : State) (c : ErrCode) : (s.complete c).err = decide (c ≠ .none) := rfl
@[simp] theorem complete_rej (s : State) (c : ErrCode) : (s.complete c).rej = s.rej := rfl
@[simp] theorem complete_lineErr (s : State) (c : ErrCode) : (s.complete c).lineErr = s.lineErr := rfl
@[simp] theorem complete_errcode (s : State) (c : ErrCode) : (s.complete c).errcode = c.toByte := rfl
@[simp] theorem complete_dest (s : State) (c : ErrCode) : (s.complete c).dest = s.dest := rfl
@[simp] theorem complete_src (s : State) (c : ErrCode) : (s.complete c).src = s.src := rfl
@[simp] theorem complete_reg (s : State) (c : ErrCode) : (s.complete c).reg = s.reg := rfl
@[simp] theorem complete_txLen (s : State) (c : ErrCode) : (s.complete c).txLen = s.txLen := rfl
@[simp] theorem complete_rxBlen (s : State) (c : ErrCode) : (s.complete c).rxBlen = s.rxBlen := rfl
@[simp] theorem complete_txCrc (s : State) (c : ErrCode) : (s.complete c).txCrc = s.txCrc := rfl
@[simp] theorem complete_rxRes (s : State) (c : ErrCode) : (s.complete c).rxRes = s.rxRes := rfl
@[simp] theorem complete_toLimit (s : State) (c : ErrCode) : (s.complete c).toLimit = s.toLimit := rfl
@[simp] theorem complete_crcAcc (s : State) (c : ErrCode) : (s.complete c).crcAcc = s.crcAcc := rfl
@[simp] theorem complete_rxInfo (s : State) (c : ErrCode) : (s.complete c).rxInfo = s.rxInfo := rfl
@[simp] theorem complete_mem (s : State) (c : ErrCode) : (s.complete c).mem = s.mem := rfl
@[simp] theorem complete_phase (s : State) (c : ErrCode) : (s.complete c).phase = .idle := rfl
@[simp] theorem complete_op (s : State) (c : ErrCode) : (s.complete c).op = s.op := rfl
@[simp] theorem complete_txFrame (s : State) (c : ErrCode) : (s.complete c).txFrame = s.txFrame := rfl
@[simp] theorem complete_txIdx (s : State) (c : ErrCode) : (s.complete c).txIdx = s.txIdx := rfl
@[simp] theorem complete_rxEsc (s : State) (c : ErrCode) : (s.complete c).rxEsc = s.rxEsc := rfl
@[simp] theorem complete_rxCnt (s : State) (c : ErrCode) : (s.complete c).rxCnt = s.rxCnt := rfl
@[simp] theorem complete_rxCrc (s : State) (c : ErrCode) : (s.complete c).rxCrc = s.rxCrc := rfl
@[simp] theorem complete_toCnt (s : State) (c : ErrCode) : (s.complete c).toCnt = s.toCnt := rfl
@[simp] theorem complete_utxBusy (s : State) (c : ErrCode) : (s.complete c).utxBusy = s.utxBusy := rfl
@[simp] theorem complete_utxByte (s : State) (c : ErrCode) : (s.complete c).utxByte = s.utxByte := rfl
@[simp] theorem complete_wireOut (s : State) (c : ErrCode) : (s.complete c).wireOut = s.wireOut := rfl
@[simp] theorem complete_busReplies (s : State) (c : ErrCode) : (s.complete c).busReplies = s.busReplies := rfl
@[simp] theorem complete_cfg (s : State) (c : ErrCode) : (s.complete c).cfg = s.cfg := rfl
@[simp] theorem complete_agenda (s : State) (c : ErrCode) : (s.complete c).agenda = s.agenda := rfl
@[simp] theorem complete_fresh (s : State) (c : ErrCode) : (s.complete c).fresh = s.fresh := rfl

/-! ### accept -/

@[simp] theorem accept_ctrl (s : State) (o : Op) : (s.accept o).ctrl = s.ctrl := rfl
@[simp] theorem accept_done (s : State) (o : Op) : (s.accept o).done = false := rfl
@[simp] theorem accept_err (s : State) (o : Op) : (s.accept o).err = false := rfl
@[simp] theorem accept_rej (s : State) (o : Op) : (s.accept o).rej = s.rej := rfl
@[simp] theorem accept_lineErr (s : State) (o : Op) : (s.accept o).lineErr = s.lineErr := rfl
@[simp] theorem accept_errcode (s : State) (o : Op) : (s.accept o).errcode = 0x00 := rfl
@[simp] theorem accept_dest (s : State) (o : Op) : (s.accept o).dest = s.dest := rfl
@[simp] theorem accept_src (s : State) (o : Op) : (s.accept o).src = s.src := rfl
@[simp] theorem accept_reg (s : State) (o : Op) : (s.accept o).reg = s.reg := rfl
@[simp] theorem accept_txLen (s : State) (o : Op) : (s.accept o).txLen = s.txLen := rfl
@[simp] theorem accept_rxBlen (s : State) (o : Op) : (s.accept o).rxBlen = 0x00 := rfl
@[simp] theorem accept_txCrc (s : State) (o : Op) : (s.accept o).txCrc = s.txCrc := rfl
@[simp] theorem accept_rxRes (s : State) (o : Op) : (s.accept o).rxRes = 0x0000 := rfl
@[simp] theorem accept_toLimit (s : State) (o : Op) : (s.accept o).toLimit = s.toLimit := rfl
@[simp] theorem accept_crcAcc (s : State) (o : Op) : (s.accept o).crcAcc = s.crcAcc := rfl
@[simp] theorem accept_rxInfo (s : State) (o : Op) : (s.accept o).rxInfo = 0x00 := rfl
@[simp] theorem accept_mem (s : State) (o : Op) : (s.accept o).mem = s.mem := rfl
@[simp] theorem accept_phase (s : State) (o : Op) : (s.accept o).phase = s.phase := rfl
@[simp] theorem accept_op (s : State) (o : Op) : (s.accept o).op = o := rfl
@[simp] theorem accept_txFrame (s : State) (o : Op) : (s.accept o).txFrame = s.txFrame := rfl
@[simp] theorem accept_txIdx (s : State) (o : Op) : (s.accept o).txIdx = s.txIdx := rfl
@[simp] theorem accept_rxEsc (s : State) (o : Op) : (s.accept o).rxEsc = false := rfl
@[simp] theorem accept_rxCnt (s : State) (o : Op) : (s.accept o).rxCnt = 0 := rfl
@[simp] theorem accept_rxCrc (s : State) (o : Op) : (s.accept o).rxCrc = 0x0000 := rfl
@[simp] theorem accept_toCnt (s : State) (o : Op) : (s.accept o).toCnt = 0x0000 := rfl
@[simp] theorem accept_utxBusy (s : State) (o : Op) : (s.accept o).utxBusy = s.utxBusy := rfl
@[simp] theorem accept_utxByte (s : State) (o : Op) : (s.accept o).utxByte = s.utxByte := rfl
@[simp] theorem accept_wireOut (s : State) (o : Op) : (s.accept o).wireOut = s.wireOut := rfl
@[simp] theorem accept_busReplies (s : State) (o : Op) : (s.accept o).busReplies = s.busReplies := rfl
@[simp] theorem accept_cfg (s : State) (o : Op) : (s.accept o).cfg = s.cfg := rfl
@[simp] theorem accept_agenda (s : State) (o : Op) : (s.accept o).agenda = s.agenda := rfl
@[simp] theorem accept_fresh (s : State) (o : Op) : (s.accept o).fresh = s.fresh := rfl

/-! ### startFrame -/

@[simp] theorem startFrame_ctrl (s : State) (c : Byte) (p : List Byte) : (s.startFrame c p).ctrl = s.ctrl := rfl
@[simp] theorem startFrame_done (s : State) (c : Byte) (p : List Byte) : (s.startFrame c p).done = s.done := rfl
@[simp] theorem startFrame_err (s : State) (c : Byte) (p : List Byte) : (s.startFrame c p).err = s.err := rfl
@[simp] theorem startFrame_rej (s : State) (c : Byte) (p : List Byte) : (s.startFrame c p).rej = s.rej := rfl
@[simp] theorem startFrame_lineErr (s : State) (c : Byte) (p : List Byte) : (s.startFrame c p).lineErr = s.lineErr := rfl
@[simp] theorem startFrame_errcode (s : State) (c : Byte) (p : List Byte) : (s.startFrame c p).errcode = s.errcode := rfl
@[simp] theorem startFrame_dest (s : State) (c : Byte) (p : List Byte) : (s.startFrame c p).dest = s.dest := rfl
@[simp] theorem startFrame_src (s : State) (c : Byte) (p : List Byte) : (s.startFrame c p).src = s.src := rfl
@[simp] theorem startFrame_reg (s : State) (c : Byte) (p : List Byte) : (s.startFrame c p).reg = s.reg := rfl
@[simp] theorem startFrame_txLen (s : State) (c : Byte) (p : List Byte) : (s.startFrame c p).txLen = s.txLen := rfl
@[simp] theorem startFrame_rxBlen (s : State) (c : Byte) (p : List Byte) : (s.startFrame c p).rxBlen = s.rxBlen := rfl
@[simp] theorem startFrame_txCrc (s : State) (c : Byte) (p : List Byte) : (s.startFrame c p).txCrc = crc16 (requestHead s.dest s.src c s.reg p) := rfl
@[simp] theorem startFrame_rxRes (s : State) (c : Byte) (p : List Byte) : (s.startFrame c p).rxRes = s.rxRes := rfl
@[simp] theorem startFrame_toLimit (s : State) (c : Byte) (p : List Byte) : (s.startFrame c p).toLimit = s.toLimit := rfl
@[simp] theorem startFrame_crcAcc (s : State) (c : Byte) (p : List Byte) : (s.startFrame c p).crcAcc = s.crcAcc := rfl
@[simp] theorem startFrame_rxInfo (s : State) (c : Byte) (p : List Byte) : (s.startFrame c p).rxInfo = s.rxInfo := rfl
@[simp] theorem startFrame_mem (s : State) (c : Byte) (p : List Byte) : (s.startFrame c p).mem = s.mem := rfl
@[simp] theorem startFrame_phase (s : State) (c : Byte) (p : List Byte) : (s.startFrame c p).phase = .framing := rfl
@[simp] theorem startFrame_op (s : State) (c : Byte) (p : List Byte) : (s.startFrame c p).op = s.op := rfl
@[simp] theorem startFrame_txFrame (s : State) (c : Byte) (p : List Byte) : (s.startFrame c p).txFrame = frame (requestBody s.dest s.src c s.reg p) := rfl
@[simp] theorem startFrame_txIdx (s : State) (c : Byte) (p : List Byte) : (s.startFrame c p).txIdx = 0 := rfl
@[simp] theorem startFrame_rxEsc (s : State) (c : Byte) (p : List Byte) : (s.startFrame c p).rxEsc = s.rxEsc := rfl
@[simp] theorem startFrame_rxCnt (s : State) (c : Byte) (p : List Byte) : (s.startFrame c p).rxCnt = s.rxCnt := rfl
@[simp] theorem startFrame_rxCrc (s : State) (c : Byte) (p : List Byte) : (s.startFrame c p).rxCrc = s.rxCrc := rfl
@[simp] theorem startFrame_toCnt (s : State) (c : Byte) (p : List Byte) : (s.startFrame c p).toCnt = s.toCnt := rfl
@[simp] theorem startFrame_utxBusy (s : State) (c : Byte) (p : List Byte) : (s.startFrame c p).utxBusy = s.utxBusy := rfl
@[simp] theorem startFrame_utxByte (s : State) (c : Byte) (p : List Byte) : (s.startFrame c p).utxByte = s.utxByte := rfl
@[simp] theorem startFrame_wireOut (s : State) (c : Byte) (p : List Byte) : (s.startFrame c p).wireOut = s.wireOut := rfl
@[simp] theorem startFrame_busReplies (s : State) (c : Byte) (p : List Byte) : (s.startFrame c p).busReplies = s.busReplies := rfl
@[simp] theorem startFrame_cfg (s : State) (c : Byte) (p : List Byte) : (s.startFrame c p).cfg = s.cfg := rfl
@[simp] theorem startFrame_agenda (s : State) (c : Byte) (p : List Byte) : (s.startFrame c p).agenda = s.agenda := rfl
@[simp] theorem startFrame_fresh (s : State) (c : Byte) (p : List Byte) : (s.startFrame c p).fresh = s.fresh := rfl

/-! ### lineSend -/

@[simp] theorem lineSend_ctrl (s : State) (b : Byte) : (s.lineSend b).ctrl = s.ctrl := rfl
@[simp] theorem lineSend_done (s : State) (b : Byte) : (s.lineSend b).done = s.done := rfl
@[simp] theorem lineSend_err (s : State) (b : Byte) : (s.lineSend b).err = s.err := rfl
@[simp] theorem lineSend_rej (s : State) (b : Byte) : (s.lineSend b).rej = s.rej := rfl
@[simp] theorem lineSend_lineErr (s : State) (b : Byte) : (s.lineSend b).lineErr = s.lineErr := rfl
@[simp] theorem lineSend_errcode (s : State) (b : Byte) : (s.lineSend b).errcode = s.errcode := rfl
@[simp] theorem lineSend_dest (s : State) (b : Byte) : (s.lineSend b).dest = s.dest := rfl
@[simp] theorem lineSend_src (s : State) (b : Byte) : (s.lineSend b).src = s.src := rfl
@[simp] theorem lineSend_reg (s : State) (b : Byte) : (s.lineSend b).reg = s.reg := rfl
@[simp] theorem lineSend_txLen (s : State) (b : Byte) : (s.lineSend b).txLen = s.txLen := rfl
@[simp] theorem lineSend_rxBlen (s : State) (b : Byte) : (s.lineSend b).rxBlen = s.rxBlen := rfl
@[simp] theorem lineSend_txCrc (s : State) (b : Byte) : (s.lineSend b).txCrc = s.txCrc := rfl
@[simp] theorem lineSend_rxRes (s : State) (b : Byte) : (s.lineSend b).rxRes = s.rxRes := rfl
@[simp] theorem lineSend_toLimit (s : State) (b : Byte) : (s.lineSend b).toLimit = s.toLimit := rfl
@[simp] theorem lineSend_crcAcc (s : State) (b : Byte) : (s.lineSend b).crcAcc = s.crcAcc := rfl
@[simp] theorem lineSend_rxInfo (s : State) (b : Byte) : (s.lineSend b).rxInfo = s.rxInfo := rfl
@[simp] theorem lineSend_mem (s : State) (b : Byte) : (s.lineSend b).mem = s.mem := rfl
@[simp] theorem lineSend_phase (s : State) (b : Byte) : (s.lineSend b).phase = s.phase := rfl
@[simp] theorem lineSend_op (s : State) (b : Byte) : (s.lineSend b).op = s.op := rfl
@[simp] theorem lineSend_txFrame (s : State) (b : Byte) : (s.lineSend b).txFrame = s.txFrame := rfl
@[simp] theorem lineSend_txIdx (s : State) (b : Byte) : (s.lineSend b).txIdx = s.txIdx := rfl
@[simp] theorem lineSend_rxEsc (s : State) (b : Byte) : (s.lineSend b).rxEsc = s.rxEsc := rfl
@[simp] theorem lineSend_rxCnt (s : State) (b : Byte) : (s.lineSend b).rxCnt = s.rxCnt := rfl
@[simp] theorem lineSend_rxCrc (s : State) (b : Byte) : (s.lineSend b).rxCrc = s.rxCrc := rfl
@[simp] theorem lineSend_toCnt (s : State) (b : Byte) : (s.lineSend b).toCnt = s.toCnt := rfl
@[simp] theorem lineSend_utxBusy (s : State) (b : Byte) : (s.lineSend b).utxBusy = true := rfl
@[simp] theorem lineSend_utxByte (s : State) (b : Byte) : (s.lineSend b).utxByte = b := rfl
@[simp] theorem lineSend_wireOut (s : State) (b : Byte) : (s.lineSend b).wireOut = s.wireOut := rfl
@[simp] theorem lineSend_busReplies (s : State) (b : Byte) : (s.lineSend b).busReplies = s.busReplies := rfl
@[simp] theorem lineSend_cfg (s : State) (b : Byte) : (s.lineSend b).cfg = s.cfg := rfl
@[simp] theorem lineSend_agenda (s : State) (b : Byte) : (s.lineSend b).agenda = s.agenda := rfl
@[simp] theorem lineSend_fresh (s : State) (b : Byte) : (s.lineSend b).fresh = s.fresh := rfl

/-! ### utxDone -/

@[simp] theorem utxDone_ctrl (s : State) : (s.utxDone).ctrl = s.ctrl := rfl
@[simp] theorem utxDone_done (s : State) : (s.utxDone).done = s.done := rfl
@[simp] theorem utxDone_err (s : State) : (s.utxDone).err = s.err := rfl
@[simp] theorem utxDone_rej (s : State) : (s.utxDone).rej = s.rej := rfl
@[simp] theorem utxDone_lineErr (s : State) : (s.utxDone).lineErr = s.lineErr := rfl
@[simp] theorem utxDone_errcode (s : State) : (s.utxDone).errcode = s.errcode := rfl
@[simp] theorem utxDone_dest (s : State) : (s.utxDone).dest = s.dest := rfl
@[simp] theorem utxDone_src (s : State) : (s.utxDone).src = s.src := rfl
@[simp] theorem utxDone_reg (s : State) : (s.utxDone).reg = s.reg := rfl
@[simp] theorem utxDone_txLen (s : State) : (s.utxDone).txLen = s.txLen := rfl
@[simp] theorem utxDone_rxBlen (s : State) : (s.utxDone).rxBlen = s.rxBlen := rfl
@[simp] theorem utxDone_txCrc (s : State) : (s.utxDone).txCrc = s.txCrc := rfl
@[simp] theorem utxDone_rxRes (s : State) : (s.utxDone).rxRes = s.rxRes := rfl
@[simp] theorem utxDone_toLimit (s : State) : (s.utxDone).toLimit = s.toLimit := rfl
@[simp] theorem utxDone_crcAcc (s : State) : (s.utxDone).crcAcc = s.crcAcc := rfl
@[simp] theorem utxDone_rxInfo (s : State) : (s.utxDone).rxInfo = s.rxInfo := rfl
@[simp] theorem utxDone_mem (s : State) : (s.utxDone).mem = s.mem := rfl
@[simp] theorem utxDone_phase (s : State) : (s.utxDone).phase = s.phase := rfl
@[simp] theorem utxDone_op (s : State) : (s.utxDone).op = s.op := rfl
@[simp] theorem utxDone_txFrame (s : State) : (s.utxDone).txFrame = s.txFrame := rfl
@[simp] theorem utxDone_txIdx (s : State) : (s.utxDone).txIdx = s.txIdx := rfl
@[simp] theorem utxDone_rxEsc (s : State) : (s.utxDone).rxEsc = s.rxEsc := rfl
@[simp] theorem utxDone_rxCnt (s : State) : (s.utxDone).rxCnt = s.rxCnt := rfl
@[simp] theorem utxDone_rxCrc (s : State) : (s.utxDone).rxCrc = s.rxCrc := rfl
@[simp] theorem utxDone_toCnt (s : State) : (s.utxDone).toCnt = s.toCnt := rfl
@[simp] theorem utxDone_utxBusy (s : State) : (s.utxDone).utxBusy = false := rfl
@[simp] theorem utxDone_utxByte (s : State) : (s.utxDone).utxByte = s.utxByte := rfl
@[simp] theorem utxDone_wireOut (s : State) : (s.utxDone).wireOut = s.wireOut ++ [s.utxByte] := rfl
@[simp] theorem utxDone_busReplies (s : State) : (s.utxDone).busReplies = s.busReplies := rfl
@[simp] theorem utxDone_cfg (s : State) : (s.utxDone).cfg = s.cfg := rfl
@[simp] theorem utxDone_agenda (s : State) : (s.utxDone).agenda = s.agenda := rfl
@[simp] theorem utxDone_fresh (s : State) : (s.utxDone).fresh = s.fresh := rfl

/-! ### framingError -/

@[simp] theorem framingError_ctrl (s : State) : (s.framingError).ctrl = s.ctrl := rfl
@[simp] theorem framingError_done (s : State) : (s.framingError).done = s.done := rfl
@[simp] theorem framingError_err (s : State) : (s.framingError).err = s.err := rfl
@[simp] theorem framingError_rej (s : State) : (s.framingError).rej = s.rej := rfl
@[simp] theorem framingError_lineErr (s : State) : (s.framingError).lineErr = true := rfl
@[simp] theorem framingError_errcode (s : State) : (s.framingError).errcode = s.errcode := rfl
@[simp] theorem framingError_dest (s : State) : (s.framingError).dest = s.dest := rfl
@[simp] theorem framingError_src (s : State) : (s.framingError).src = s.src := rfl
@[simp] theorem framingError_reg (s : State) : (s.framingError).reg = s.reg := rfl
@[simp] theorem framingError_txLen (s : State) : (s.framingError).txLen = s.txLen := rfl
@[simp] theorem framingError_rxBlen (s : State) : (s.framingError).rxBlen = s.rxBlen := rfl
@[simp] theorem framingError_txCrc (s : State) : (s.framingError).txCrc = s.txCrc := rfl
@[simp] theorem framingError_rxRes (s : State) : (s.framingError).rxRes = s.rxRes := rfl
@[simp] theorem framingError_toLimit (s : State) : (s.framingError).toLimit = s.toLimit := rfl
@[simp] theorem framingError_crcAcc (s : State) : (s.framingError).crcAcc = s.crcAcc := rfl
@[simp] theorem framingError_rxInfo (s : State) : (s.framingError).rxInfo = s.rxInfo := rfl
@[simp] theorem framingError_mem (s : State) : (s.framingError).mem = s.mem := rfl
@[simp] theorem framingError_phase (s : State) : (s.framingError).phase = s.phase := rfl
@[simp] theorem framingError_op (s : State) : (s.framingError).op = s.op := rfl
@[simp] theorem framingError_txFrame (s : State) : (s.framingError).txFrame = s.txFrame := rfl
@[simp] theorem framingError_txIdx (s : State) : (s.framingError).txIdx = s.txIdx := rfl
@[simp] theorem framingError_rxEsc (s : State) : (s.framingError).rxEsc = s.rxEsc := rfl
@[simp] theorem framingError_rxCnt (s : State) : (s.framingError).rxCnt = s.rxCnt := rfl
@[simp] theorem framingError_rxCrc (s : State) : (s.framingError).rxCrc = s.rxCrc := rfl
@[simp] theorem framingError_toCnt (s : State) : (s.framingError).toCnt = s.toCnt := rfl
@[simp] theorem framingError_utxBusy (s : State) : (s.framingError).utxBusy = s.utxBusy := rfl
@[simp] theorem framingError_utxByte (s : State) : (s.framingError).utxByte = s.utxByte := rfl
@[simp] theorem framingError_wireOut (s : State) : (s.framingError).wireOut = s.wireOut := rfl
@[simp] theorem framingError_busReplies (s : State) : (s.framingError).busReplies = s.busReplies := rfl
@[simp] theorem framingError_cfg (s : State) : (s.framingError).cfg = s.cfg := rfl
@[simp] theorem framingError_agenda (s : State) : (s.framingError).agenda = s.agenda := rfl
@[simp] theorem framingError_fresh (s : State) : (s.framingError).fresh = s.fresh := rfl

/-! ### openBody -/

@[simp] theorem openBody_ctrl (s : State) : (s.openBody).ctrl = s.ctrl := rfl
@[simp] theorem openBody_done (s : State) : (s.openBody).done = s.done := rfl
@[simp] theorem openBody_err (s : State) : (s.openBody).err = s.err := rfl
@[simp] theorem openBody_rej (s : State) : (s.openBody).rej = s.rej := rfl
@[simp] theorem openBody_lineErr (s : State) : (s.openBody).lineErr = s.lineErr := rfl
@[simp] theorem openBody_errcode (s : State) : (s.openBody).errcode = s.errcode := rfl
@[simp] theorem openBody_dest (s : State) : (s.openBody).dest = s.dest := rfl
@[simp] theorem openBody_src (s : State) : (s.openBody).src = s.src := rfl
@[simp] theorem openBody_reg (s : State) : (s.openBody).reg = s.reg := rfl
@[simp] theorem openBody_txLen (s : State) : (s.openBody).txLen = s.txLen := rfl
@[simp] theorem openBody_rxBlen (s : State) : (s.openBody).rxBlen = s.rxBlen := rfl
@[simp] theorem openBody_txCrc (s : State) : (s.openBody).txCrc = s.txCrc := rfl
@[simp] theorem openBody_rxRes (s : State) : (s.openBody).rxRes = s.rxRes := rfl
@[simp] theorem openBody_toLimit (s : State) : (s.openBody).toLimit = s.toLimit := rfl
@[simp] theorem openBody_crcAcc (s : State) : (s.openBody).crcAcc = s.crcAcc := rfl
@[simp] theorem openBody_rxInfo (s : State) : (s.openBody).rxInfo = s.rxInfo := rfl
@[simp] theorem openBody_mem (s : State) : (s.openBody).mem = s.mem := rfl
@[simp] theorem openBody_phase (s : State) : (s.openBody).phase = .recvBody := rfl
@[simp] theorem openBody_op (s : State) : (s.openBody).op = s.op := rfl
@[simp] theorem openBody_txFrame (s : State) : (s.openBody).txFrame = s.txFrame := rfl
@[simp] theorem openBody_txIdx (s : State) : (s.openBody).txIdx = s.txIdx := rfl
@[simp] theorem openBody_rxEsc (s : State) : (s.openBody).rxEsc = false := rfl
@[simp] theorem openBody_rxCnt (s : State) : (s.openBody).rxCnt = 0 := rfl
@[simp] theorem openBody_rxCrc (s : State) : (s.openBody).rxCrc = 0x0000 := rfl
@[simp] theorem openBody_toCnt (s : State) : (s.openBody).toCnt = 0x0000 := rfl
@[simp] theorem openBody_utxBusy (s : State) : (s.openBody).utxBusy = s.utxBusy := rfl
@[simp] theorem openBody_utxByte (s : State) : (s.openBody).utxByte = s.utxByte := rfl
@[simp] theorem openBody_wireOut (s : State) : (s.openBody).wireOut = s.wireOut := rfl
@[simp] theorem openBody_busReplies (s : State) : (s.openBody).busReplies = s.busReplies := rfl
@[simp] theorem openBody_cfg (s : State) : (s.openBody).cfg = s.cfg := rfl
@[simp] theorem openBody_agenda (s : State) : (s.openBody).agenda = s.agenda := rfl
@[simp] theorem openBody_fresh (s : State) : (s.openBody).fresh = s.fresh := rfl

/-! ### endBody -/

@[simp] theorem endBody_ctrl (s : State) : (s.endBody).ctrl = s.ctrl := rfl
@[simp] theorem endBody_done (s : State) : (s.endBody).done = s.done := rfl
@[simp] theorem endBody_err (s : State) : (s.endBody).err = s.err := rfl
@[simp] theorem endBody_rej (s : State) : (s.endBody).rej = s.rej := rfl
@[simp] theorem endBody_lineErr (s : State) : (s.endBody).lineErr = s.lineErr := rfl
@[simp] theorem endBody_errcode (s : State) : (s.endBody).errcode = s.errcode := rfl
@[simp] theorem endBody_dest (s : State) : (s.endBody).dest = s.dest := rfl
@[simp] theorem endBody_src (s : State) : (s.endBody).src = s.src := rfl
@[simp] theorem endBody_reg (s : State) : (s.endBody).reg = s.reg := rfl
@[simp] theorem endBody_txLen (s : State) : (s.endBody).txLen = s.txLen := rfl
@[simp] theorem endBody_rxBlen (s : State) : (s.endBody).rxBlen = s.rxBlen := rfl
@[simp] theorem endBody_txCrc (s : State) : (s.endBody).txCrc = s.txCrc := rfl
@[simp] theorem endBody_rxRes (s : State) : (s.endBody).rxRes = s.rxRes := rfl
@[simp] theorem endBody_toLimit (s : State) : (s.endBody).toLimit = s.toLimit := rfl
@[simp] theorem endBody_crcAcc (s : State) : (s.endBody).crcAcc = s.crcAcc := rfl
@[simp] theorem endBody_rxInfo (s : State) : (s.endBody).rxInfo = s.rxInfo := rfl
@[simp] theorem endBody_mem (s : State) : (s.endBody).mem = s.mem := rfl
@[simp] theorem endBody_phase (s : State) : (s.endBody).phase = .validating := rfl
@[simp] theorem endBody_op (s : State) : (s.endBody).op = s.op := rfl
@[simp] theorem endBody_txFrame (s : State) : (s.endBody).txFrame = s.txFrame := rfl
@[simp] theorem endBody_txIdx (s : State) : (s.endBody).txIdx = s.txIdx := rfl
@[simp] theorem endBody_rxEsc (s : State) : (s.endBody).rxEsc = s.rxEsc := rfl
@[simp] theorem endBody_rxCnt (s : State) : (s.endBody).rxCnt = s.rxCnt := rfl
@[simp] theorem endBody_rxCrc (s : State) : (s.endBody).rxCrc = s.rxCrc := rfl
@[simp] theorem endBody_toCnt (s : State) : (s.endBody).toCnt = s.toCnt := rfl
@[simp] theorem endBody_utxBusy (s : State) : (s.endBody).utxBusy = s.utxBusy := rfl
@[simp] theorem endBody_utxByte (s : State) : (s.endBody).utxByte = s.utxByte := rfl
@[simp] theorem endBody_wireOut (s : State) : (s.endBody).wireOut = s.wireOut := rfl
@[simp] theorem endBody_busReplies (s : State) : (s.endBody).busReplies = s.busReplies := rfl
@[simp] theorem endBody_cfg (s : State) : (s.endBody).cfg = s.cfg := rfl
@[simp] theorem endBody_agenda (s : State) : (s.endBody).agenda = s.agenda := rfl
@[simp] theorem endBody_fresh (s : State) : (s.endBody).fresh = s.fresh := rfl

/-! ### store -/

@[simp] theorem store_ctrl (s : State) (d : Byte) : (s.store d).ctrl = s.ctrl := rfl
@[simp] theorem store_done (s : State) (d : Byte) : (s.store d).done = s.done := rfl
@[simp] theorem store_err (s : State) (d : Byte) : (s.store d).err = s.err := rfl
@[simp] theorem store_rej (s : State) (d : Byte) : (s.store d).rej = s.rej := rfl
@[simp] theorem store_lineErr (s : State) (d : Byte) : (s.store d).lineErr = s.lineErr := rfl
@[simp] theorem store_errcode (s : State) (d : Byte) : (s.store d).errcode = s.errcode := rfl
@[simp] theorem store_dest (s : State) (d : Byte) : (s.store d).dest = s.dest := rfl
@[simp] theorem store_src (s : State) (d : Byte) : (s.store d).src = s.src := rfl
@[simp] theorem store_reg (s : State) (d : Byte) : (s.store d).reg = s.reg := rfl
@[simp] theorem store_txLen (s : State) (d : Byte) : (s.store d).txLen = s.txLen := rfl
@[simp] theorem store_rxBlen (s : State) (d : Byte) : (s.store d).rxBlen = s.rxBlen := rfl
@[simp] theorem store_txCrc (s : State) (d : Byte) : (s.store d).txCrc = s.txCrc := rfl
@[simp] theorem store_rxRes (s : State) (d : Byte) : (s.store d).rxRes = s.rxRes := rfl
@[simp] theorem store_toLimit (s : State) (d : Byte) : (s.store d).toLimit = s.toLimit := rfl
@[simp] theorem store_crcAcc (s : State) (d : Byte) : (s.store d).crcAcc = s.crcAcc := rfl
@[simp] theorem store_rxInfo (s : State) (d : Byte) : (s.store d).rxInfo = s.rxInfo := rfl
@[simp] theorem store_mem (s : State) (d : Byte) : (s.store d).mem = if s.rxCnt < s.cfg.rxbuf then s.mem.write (rxbufBase + s.rxCnt) d else s.mem := rfl
@[simp] theorem store_phase (s : State) (d : Byte) : (s.store d).phase = s.phase := rfl
@[simp] theorem store_op (s : State) (d : Byte) : (s.store d).op = s.op := rfl
@[simp] theorem store_txFrame (s : State) (d : Byte) : (s.store d).txFrame = s.txFrame := rfl
@[simp] theorem store_txIdx (s : State) (d : Byte) : (s.store d).txIdx = s.txIdx := rfl
@[simp] theorem store_rxEsc (s : State) (d : Byte) : (s.store d).rxEsc = s.rxEsc := rfl
@[simp] theorem store_rxCnt (s : State) (d : Byte) : (s.store d).rxCnt = min (s.rxCnt + 1) (s.cfg.rxbuf + 1) := rfl
@[simp] theorem store_rxCrc (s : State) (d : Byte) : (s.store d).rxCrc = crcUpd s.rxCrc d := rfl
@[simp] theorem store_toCnt (s : State) (d : Byte) : (s.store d).toCnt = s.toCnt := rfl
@[simp] theorem store_utxBusy (s : State) (d : Byte) : (s.store d).utxBusy = s.utxBusy := rfl
@[simp] theorem store_utxByte (s : State) (d : Byte) : (s.store d).utxByte = s.utxByte := rfl
@[simp] theorem store_wireOut (s : State) (d : Byte) : (s.store d).wireOut = s.wireOut := rfl
@[simp] theorem store_busReplies (s : State) (d : Byte) : (s.store d).busReplies = s.busReplies := rfl
@[simp] theorem store_cfg (s : State) (d : Byte) : (s.store d).cfg = s.cfg := rfl
@[simp] theorem store_agenda (s : State) (d : Byte) : (s.store d).agenda = s.agenda := rfl
@[simp] theorem store_fresh (s : State) (d : Byte) : (s.store d).fresh = s.fresh := rfl

/-! ### setRxEsc -/

@[simp] theorem setRxEsc_ctrl (s : State) (e : Bool) : (s.setRxEsc e).ctrl = s.ctrl := rfl
@[simp] theorem setRxEsc_done (s : State) (e : Bool) : (s.setRxEsc e).done = s.done := rfl
@[simp] theorem setRxEsc_err (s : State) (e : Bool) : (s.setRxEsc e).err = s.err := rfl
@[simp] theorem setRxEsc_rej (s : State) (e : Bool) : (s.setRxEsc e).rej = s.rej := rfl
@[simp] theorem setRxEsc_lineErr (s : State) (e : Bool) : (s.setRxEsc e).lineErr = s.lineErr := rfl
@[simp] theorem setRxEsc_errcode (s : State) (e : Bool) : (s.setRxEsc e).errcode = s.errcode := rfl
@[simp] theorem setRxEsc_dest (s : State) (e : Bool) : (s.setRxEsc e).dest = s.dest := rfl
@[simp] theorem setRxEsc_src (s : State) (e : Bool) : (s.setRxEsc e).src = s.src := rfl
@[simp] theorem setRxEsc_reg (s : State) (e : Bool) : (s.setRxEsc e).reg = s.reg := rfl
@[simp] theorem setRxEsc_txLen (s : State) (e : Bool) : (s.setRxEsc e).txLen = s.txLen := rfl
@[simp] theorem setRxEsc_rxBlen (s : State) (e : Bool) : (s.setRxEsc e).rxBlen = s.rxBlen := rfl
@[simp] theorem setRxEsc_txCrc (s : State) (e : Bool) : (s.setRxEsc e).txCrc = s.txCrc := rfl
@[simp] theorem setRxEsc_rxRes (s : State) (e : Bool) : (s.setRxEsc e).rxRes = s.rxRes := rfl
@[simp] theorem setRxEsc_toLimit (s : State) (e : Bool) : (s.setRxEsc e).toLimit = s.toLimit := rfl
@[simp] theorem setRxEsc_crcAcc (s : State) (e : Bool) : (s.setRxEsc e).crcAcc = s.crcAcc := rfl
@[simp] theorem setRxEsc_rxInfo (s : State) (e : Bool) : (s.setRxEsc e).rxInfo = s.rxInfo := rfl
@[simp] theorem setRxEsc_mem (s : State) (e : Bool) : (s.setRxEsc e).mem = s.mem := rfl
@[simp] theorem setRxEsc_phase (s : State) (e : Bool) : (s.setRxEsc e).phase = s.phase := rfl
@[simp] theorem setRxEsc_op (s : State) (e : Bool) : (s.setRxEsc e).op = s.op := rfl
@[simp] theorem setRxEsc_txFrame (s : State) (e : Bool) : (s.setRxEsc e).txFrame = s.txFrame := rfl
@[simp] theorem setRxEsc_txIdx (s : State) (e : Bool) : (s.setRxEsc e).txIdx = s.txIdx := rfl
@[simp] theorem setRxEsc_rxEsc (s : State) (e : Bool) : (s.setRxEsc e).rxEsc = e := rfl
@[simp] theorem setRxEsc_rxCnt (s : State) (e : Bool) : (s.setRxEsc e).rxCnt = s.rxCnt := rfl
@[simp] theorem setRxEsc_rxCrc (s : State) (e : Bool) : (s.setRxEsc e).rxCrc = s.rxCrc := rfl
@[simp] theorem setRxEsc_toCnt (s : State) (e : Bool) : (s.setRxEsc e).toCnt = s.toCnt := rfl
@[simp] theorem setRxEsc_utxBusy (s : State) (e : Bool) : (s.setRxEsc e).utxBusy = s.utxBusy := rfl
@[simp] theorem setRxEsc_utxByte (s : State) (e : Bool) : (s.setRxEsc e).utxByte = s.utxByte := rfl
@[simp] theorem setRxEsc_wireOut (s : State) (e : Bool) : (s.setRxEsc e).wireOut = s.wireOut := rfl
@[simp] theorem setRxEsc_busReplies (s : State) (e : Bool) : (s.setRxEsc e).busReplies = s.busReplies := rfl
@[simp] theorem setRxEsc_cfg (s : State) (e : Bool) : (s.setRxEsc e).cfg = s.cfg := rfl
@[simp] theorem setRxEsc_agenda (s : State) (e : Bool) : (s.setRxEsc e).agenda = s.agenda := rfl
@[simp] theorem setRxEsc_fresh (s : State) (e : Bool) : (s.setRxEsc e).fresh = s.fresh := rfl

/-! ### publish -/

@[simp] theorem publish_ctrl (s : State) : (s.publish).ctrl = s.ctrl := rfl
@[simp] theorem publish_done (s : State) : (s.publish).done = s.done := rfl
@[simp] theorem publish_err (s : State) : (s.publish).err = s.err := rfl
@[simp] theorem publish_rej (s : State) : (s.publish).rej = s.rej := rfl
@[simp] theorem publish_lineErr (s : State) : (s.publish).lineErr = s.lineErr := rfl
@[simp] theorem publish_errcode (s : State) : (s.publish).errcode = s.errcode := rfl
@[simp] theorem publish_dest (s : State) : (s.publish).dest = s.dest := rfl
@[simp] theorem publish_src (s : State) : (s.publish).src = s.src := rfl
@[simp] theorem publish_reg (s : State) : (s.publish).reg = s.reg := rfl
@[simp] theorem publish_txLen (s : State) : (s.publish).txLen = s.txLen := rfl
@[simp] theorem publish_rxBlen (s : State) : (s.publish).rxBlen = BitVec.ofNat 8 (min s.rxCnt s.cfg.rxbuf) := rfl
@[simp] theorem publish_txCrc (s : State) : (s.publish).txCrc = s.txCrc := rfl
@[simp] theorem publish_rxRes (s : State) : (s.publish).rxRes = s.rxCrc := rfl
@[simp] theorem publish_toLimit (s : State) : (s.publish).toLimit = s.toLimit := rfl
@[simp] theorem publish_crcAcc (s : State) : (s.publish).crcAcc = s.crcAcc := rfl
@[simp] theorem publish_rxInfo (s : State) : (s.publish).rxInfo = s.rxInfo := rfl
@[simp] theorem publish_mem (s : State) : (s.publish).mem = s.mem := rfl
@[simp] theorem publish_phase (s : State) : (s.publish).phase = s.phase := rfl
@[simp] theorem publish_op (s : State) : (s.publish).op = s.op := rfl
@[simp] theorem publish_txFrame (s : State) : (s.publish).txFrame = s.txFrame := rfl
@[simp] theorem publish_txIdx (s : State) : (s.publish).txIdx = s.txIdx := rfl
@[simp] theorem publish_rxEsc (s : State) : (s.publish).rxEsc = s.rxEsc := rfl
@[simp] theorem publish_rxCnt (s : State) : (s.publish).rxCnt = s.rxCnt := rfl
@[simp] theorem publish_rxCrc (s : State) : (s.publish).rxCrc = s.rxCrc := rfl
@[simp] theorem publish_toCnt (s : State) : (s.publish).toCnt = s.toCnt := rfl
@[simp] theorem publish_utxBusy (s : State) : (s.publish).utxBusy = s.utxBusy := rfl
@[simp] theorem publish_utxByte (s : State) : (s.publish).utxByte = s.utxByte := rfl
@[simp] theorem publish_wireOut (s : State) : (s.publish).wireOut = s.wireOut := rfl
@[simp] theorem publish_busReplies (s : State) : (s.publish).busReplies = s.busReplies := rfl
@[simp] theorem publish_cfg (s : State) : (s.publish).cfg = s.cfg := rfl
@[simp] theorem publish_agenda (s : State) : (s.publish).agenda = s.agenda := rfl
@[simp] theorem publish_fresh (s : State) : (s.publish).fresh = s.fresh := rfl

/-! ### setRxInfo -/

@[simp] theorem setRxInfo_ctrl (s : State) (v : Byte) : (s.setRxInfo v).ctrl = s.ctrl := rfl
@[simp] theorem setRxInfo_done (s : State) (v : Byte) : (s.setRxInfo v).done = s.done := rfl
@[simp] theorem setRxInfo_err (s : State) (v : Byte) : (s.setRxInfo v).err = s.err := rfl
@[simp] theorem setRxInfo_rej (s : State) (v : Byte) : (s.setRxInfo v).rej = s.rej := rfl
@[simp] theorem setRxInfo_lineErr (s : State) (v : Byte) : (s.setRxInfo v).lineErr = s.lineErr := rfl
@[simp] theorem setRxInfo_errcode (s : State) (v : Byte) : (s.setRxInfo v).errcode = s.errcode := rfl
@[simp] theorem setRxInfo_dest (s : State) (v : Byte) : (s.setRxInfo v).dest = s.dest := rfl
@[simp] theorem setRxInfo_src (s : State) (v : Byte) : (s.setRxInfo v).src = s.src := rfl
@[simp] theorem setRxInfo_reg (s : State) (v : Byte) : (s.setRxInfo v).reg = s.reg := rfl
@[simp] theorem setRxInfo_txLen (s : State) (v : Byte) : (s.setRxInfo v).txLen = s.txLen := rfl
@[simp] theorem setRxInfo_rxBlen (s : State) (v : Byte) : (s.setRxInfo v).rxBlen = s.rxBlen := rfl
@[simp] theorem setRxInfo_txCrc (s : State) (v : Byte) : (s.setRxInfo v).txCrc = s.txCrc := rfl
@[simp] theorem setRxInfo_rxRes (s : State) (v : Byte) : (s.setRxInfo v).rxRes = s.rxRes := rfl
@[simp] theorem setRxInfo_toLimit (s : State) (v : Byte) : (s.setRxInfo v).toLimit = s.toLimit := rfl
@[simp] theorem setRxInfo_crcAcc (s : State) (v : Byte) : (s.setRxInfo v).crcAcc = s.crcAcc := rfl
@[simp] theorem setRxInfo_rxInfo (s : State) (v : Byte) : (s.setRxInfo v).rxInfo = v := rfl
@[simp] theorem setRxInfo_mem (s : State) (v : Byte) : (s.setRxInfo v).mem = s.mem := rfl
@[simp] theorem setRxInfo_phase (s : State) (v : Byte) : (s.setRxInfo v).phase = s.phase := rfl
@[simp] theorem setRxInfo_op (s : State) (v : Byte) : (s.setRxInfo v).op = s.op := rfl
@[simp] theorem setRxInfo_txFrame (s : State) (v : Byte) : (s.setRxInfo v).txFrame = s.txFrame := rfl
@[simp] theorem setRxInfo_txIdx (s : State) (v : Byte) : (s.setRxInfo v).txIdx = s.txIdx := rfl
@[simp] theorem setRxInfo_rxEsc (s : State) (v : Byte) : (s.setRxInfo v).rxEsc = s.rxEsc := rfl
@[simp] theorem setRxInfo_rxCnt (s : State) (v : Byte) : (s.setRxInfo v).rxCnt = s.rxCnt := rfl
@[simp] theorem setRxInfo_rxCrc (s : State) (v : Byte) : (s.setRxInfo v).rxCrc = s.rxCrc := rfl
@[simp] theorem setRxInfo_toCnt (s : State) (v : Byte) : (s.setRxInfo v).toCnt = s.toCnt := rfl
@[simp] theorem setRxInfo_utxBusy (s : State) (v : Byte) : (s.setRxInfo v).utxBusy = s.utxBusy := rfl
@[simp] theorem setRxInfo_utxByte (s : State) (v : Byte) : (s.setRxInfo v).utxByte = s.utxByte := rfl
@[simp] theorem setRxInfo_wireOut (s : State) (v : Byte) : (s.setRxInfo v).wireOut = s.wireOut := rfl
@[simp] theorem setRxInfo_busReplies (s : State) (v : Byte) : (s.setRxInfo v).busReplies = s.busReplies := rfl
@[simp] theorem setRxInfo_cfg (s : State) (v : Byte) : (s.setRxInfo v).cfg = s.cfg := rfl
@[simp] theorem setRxInfo_agenda (s : State) (v : Byte) : (s.setRxInfo v).agenda = s.agenda := rfl
@[simp] theorem setRxInfo_fresh (s : State) (v : Byte) : (s.setRxInfo v).fresh = s.fresh := rfl

/-! ### setToCnt -/

@[simp] theorem setToCnt_ctrl (s : State) (c : Word16) : (s.setToCnt c).ctrl = s.ctrl := rfl
@[simp] theorem setToCnt_done (s : State) (c : Word16) : (s.setToCnt c).done = s.done := rfl
@[simp] theorem setToCnt_err (s : State) (c : Word16) : (s.setToCnt c).err = s.err := rfl
@[simp] theorem setToCnt_rej (s : State) (c : Word16) : (s.setToCnt c).rej = s.rej := rfl
@[simp] theorem setToCnt_lineErr (s : State) (c : Word16) : (s.setToCnt c).lineErr = s.lineErr := rfl
@[simp] theorem setToCnt_errcode (s : State) (c : Word16) : (s.setToCnt c).errcode = s.errcode := rfl
@[simp] theorem setToCnt_dest (s : State) (c : Word16) : (s.setToCnt c).dest = s.dest := rfl
@[simp] theorem setToCnt_src (s : State) (c : Word16) : (s.setToCnt c).src = s.src := rfl
@[simp] theorem setToCnt_reg (s : State) (c : Word16) : (s.setToCnt c).reg = s.reg := rfl
@[simp] theorem setToCnt_txLen (s : State) (c : Word16) : (s.setToCnt c).txLen = s.txLen := rfl
@[simp] theorem setToCnt_rxBlen (s : State) (c : Word16) : (s.setToCnt c).rxBlen = s.rxBlen := rfl
@[simp] theorem setToCnt_txCrc (s : State) (c : Word16) : (s.setToCnt c).txCrc = s.txCrc := rfl
@[simp] theorem setToCnt_rxRes (s : State) (c : Word16) : (s.setToCnt c).rxRes = s.rxRes := rfl
@[simp] theorem setToCnt_toLimit (s : State) (c : Word16) : (s.setToCnt c).toLimit = s.toLimit := rfl
@[simp] theorem setToCnt_crcAcc (s : State) (c : Word16) : (s.setToCnt c).crcAcc = s.crcAcc := rfl
@[simp] theorem setToCnt_rxInfo (s : State) (c : Word16) : (s.setToCnt c).rxInfo = s.rxInfo := rfl
@[simp] theorem setToCnt_mem (s : State) (c : Word16) : (s.setToCnt c).mem = s.mem := rfl
@[simp] theorem setToCnt_phase (s : State) (c : Word16) : (s.setToCnt c).phase = s.phase := rfl
@[simp] theorem setToCnt_op (s : State) (c : Word16) : (s.setToCnt c).op = s.op := rfl
@[simp] theorem setToCnt_txFrame (s : State) (c : Word16) : (s.setToCnt c).txFrame = s.txFrame := rfl
@[simp] theorem setToCnt_txIdx (s : State) (c : Word16) : (s.setToCnt c).txIdx = s.txIdx := rfl
@[simp] theorem setToCnt_rxEsc (s : State) (c : Word16) : (s.setToCnt c).rxEsc = s.rxEsc := rfl
@[simp] theorem setToCnt_rxCnt (s : State) (c : Word16) : (s.setToCnt c).rxCnt = s.rxCnt := rfl
@[simp] theorem setToCnt_rxCrc (s : State) (c : Word16) : (s.setToCnt c).rxCrc = s.rxCrc := rfl
@[simp] theorem setToCnt_toCnt (s : State) (c : Word16) : (s.setToCnt c).toCnt = c := rfl
@[simp] theorem setToCnt_utxBusy (s : State) (c : Word16) : (s.setToCnt c).utxBusy = s.utxBusy := rfl
@[simp] theorem setToCnt_utxByte (s : State) (c : Word16) : (s.setToCnt c).utxByte = s.utxByte := rfl
@[simp] theorem setToCnt_wireOut (s : State) (c : Word16) : (s.setToCnt c).wireOut = s.wireOut := rfl
@[simp] theorem setToCnt_busReplies (s : State) (c : Word16) : (s.setToCnt c).busReplies = s.busReplies := rfl
@[simp] theorem setToCnt_cfg (s : State) (c : Word16) : (s.setToCnt c).cfg = s.cfg := rfl
@[simp] theorem setToCnt_agenda (s : State) (c : Word16) : (s.setToCnt c).agenda = s.agenda := rfl
@[simp] theorem setToCnt_fresh (s : State) (c : Word16) : (s.setToCnt c).fresh = s.fresh := rfl

/-! ### setAgenda -/

@[simp] theorem setAgenda_ctrl (s : State) (es : List Event) : (s.setAgenda es).ctrl = s.ctrl := rfl
@[simp] theorem setAgenda_done (s : State) (es : List Event) : (s.setAgenda es).done = s.done := rfl
@[simp] theorem setAgenda_err (s : State) (es : List Event) : (s.setAgenda es).err = s.err := rfl
@[simp] theorem setAgenda_rej (s : State) (es : List Event) : (s.setAgenda es).rej = s.rej := rfl
@[simp] theorem setAgenda_lineErr (s : State) (es : List Event) : (s.setAgenda es).lineErr = s.lineErr := rfl
@[simp] theorem setAgenda_errcode (s : State) (es : List Event) : (s.setAgenda es).errcode = s.errcode := rfl
@[simp] theorem setAgenda_dest (s : State) (es : List Event) : (s.setAgenda es).dest = s.dest := rfl
@[simp] theorem setAgenda_src (s : State) (es : List Event) : (s.setAgenda es).src = s.src := rfl
@[simp] theorem setAgenda_reg (s : State) (es : List Event) : (s.setAgenda es).reg = s.reg := rfl
@[simp] theorem setAgenda_txLen (s : State) (es : List Event) : (s.setAgenda es).txLen = s.txLen := rfl
@[simp] theorem setAgenda_rxBlen (s : State) (es : List Event) : (s.setAgenda es).rxBlen = s.rxBlen := rfl
@[simp] theorem setAgenda_txCrc (s : State) (es : List Event) : (s.setAgenda es).txCrc = s.txCrc := rfl
@[simp] theorem setAgenda_rxRes (s : State) (es : List Event) : (s.setAgenda es).rxRes = s.rxRes := rfl
@[simp] theorem setAgenda_toLimit (s : State) (es : List Event) : (s.setAgenda es).toLimit = s.toLimit := rfl
@[simp] theorem setAgenda_crcAcc (s : State) (es : List Event) : (s.setAgenda es).crcAcc = s.crcAcc := rfl
@[simp] theorem setAgenda_rxInfo (s : State) (es : List Event) : (s.setAgenda es).rxInfo = s.rxInfo := rfl
@[simp] theorem setAgenda_mem (s : State) (es : List Event) : (s.setAgenda es).mem = s.mem := rfl
@[simp] theorem setAgenda_phase (s : State) (es : List Event) : (s.setAgenda es).phase = s.phase := rfl
@[simp] theorem setAgenda_op (s : State) (es : List Event) : (s.setAgenda es).op = s.op := rfl
@[simp] theorem setAgenda_txFrame (s : State) (es : List Event) : (s.setAgenda es).txFrame = s.txFrame := rfl
@[simp] theorem setAgenda_txIdx (s : State) (es : List Event) : (s.setAgenda es).txIdx = s.txIdx := rfl
@[simp] theorem setAgenda_rxEsc (s : State) (es : List Event) : (s.setAgenda es).rxEsc = s.rxEsc := rfl
@[simp] theorem setAgenda_rxCnt (s : State) (es : List Event) : (s.setAgenda es).rxCnt = s.rxCnt := rfl
@[simp] theorem setAgenda_rxCrc (s : State) (es : List Event) : (s.setAgenda es).rxCrc = s.rxCrc := rfl
@[simp] theorem setAgenda_toCnt (s : State) (es : List Event) : (s.setAgenda es).toCnt = s.toCnt := rfl
@[simp] theorem setAgenda_utxBusy (s : State) (es : List Event) : (s.setAgenda es).utxBusy = s.utxBusy := rfl
@[simp] theorem setAgenda_utxByte (s : State) (es : List Event) : (s.setAgenda es).utxByte = s.utxByte := rfl
@[simp] theorem setAgenda_wireOut (s : State) (es : List Event) : (s.setAgenda es).wireOut = s.wireOut := rfl
@[simp] theorem setAgenda_busReplies (s : State) (es : List Event) : (s.setAgenda es).busReplies = s.busReplies := rfl
@[simp] theorem setAgenda_cfg (s : State) (es : List Event) : (s.setAgenda es).cfg = s.cfg := rfl
@[simp] theorem setAgenda_agenda (s : State) (es : List Event) : (s.setAgenda es).agenda = es := rfl
@[simp] theorem setAgenda_fresh (s : State) (es : List Event) : (s.setAgenda es).fresh = s.fresh := rfl

/-! ### bumpFresh -/

@[simp] theorem bumpFresh_ctrl (s : State) : (s.bumpFresh).ctrl = s.ctrl := rfl
@[simp] theorem bumpFresh_done (s : State) : (s.bumpFresh).done = s.done := rfl
@[simp] theorem bumpFresh_err (s : State) : (s.bumpFresh).err = s.err := rfl
@[simp] theorem bumpFresh_rej (s : State) : (s.bumpFresh).rej = s.rej := rfl
@[simp] theorem bumpFresh_lineErr (s : State) : (s.bumpFresh).lineErr = s.lineErr := rfl
@[simp] theorem bumpFresh_errcode (s : State) : (s.bumpFresh).errcode = s.errcode := rfl
@[simp] theorem bumpFresh_dest (s : State) : (s.bumpFresh).dest = s.dest := rfl
@[simp] theorem bumpFresh_src (s : State) : (s.bumpFresh).src = s.src := rfl
@[simp] theorem bumpFresh_reg (s : State) : (s.bumpFresh).reg = s.reg := rfl
@[simp] theorem bumpFresh_txLen (s : State) : (s.bumpFresh).txLen = s.txLen := rfl
@[simp] theorem bumpFresh_rxBlen (s : State) : (s.bumpFresh).rxBlen = s.rxBlen := rfl
@[simp] theorem bumpFresh_txCrc (s : State) : (s.bumpFresh).txCrc = s.txCrc := rfl
@[simp] theorem bumpFresh_rxRes (s : State) : (s.bumpFresh).rxRes = s.rxRes := rfl
@[simp] theorem bumpFresh_toLimit (s : State) : (s.bumpFresh).toLimit = s.toLimit := rfl
@[simp] theorem bumpFresh_crcAcc (s : State) : (s.bumpFresh).crcAcc = s.crcAcc := rfl
@[simp] theorem bumpFresh_rxInfo (s : State) : (s.bumpFresh).rxInfo = s.rxInfo := rfl
@[simp] theorem bumpFresh_mem (s : State) : (s.bumpFresh).mem = s.mem := rfl
@[simp] theorem bumpFresh_phase (s : State) : (s.bumpFresh).phase = s.phase := rfl
@[simp] theorem bumpFresh_op (s : State) : (s.bumpFresh).op = s.op := rfl
@[simp] theorem bumpFresh_txFrame (s : State) : (s.bumpFresh).txFrame = s.txFrame := rfl
@[simp] theorem bumpFresh_txIdx (s : State) : (s.bumpFresh).txIdx = s.txIdx := rfl
@[simp] theorem bumpFresh_rxEsc (s : State) : (s.bumpFresh).rxEsc = s.rxEsc := rfl
@[simp] theorem bumpFresh_rxCnt (s : State) : (s.bumpFresh).rxCnt = s.rxCnt := rfl
@[simp] theorem bumpFresh_rxCrc (s : State) : (s.bumpFresh).rxCrc = s.rxCrc := rfl
@[simp] theorem bumpFresh_toCnt (s : State) : (s.bumpFresh).toCnt = s.toCnt := rfl
@[simp] theorem bumpFresh_utxBusy (s : State) : (s.bumpFresh).utxBusy = s.utxBusy := rfl
@[simp] theorem bumpFresh_utxByte (s : State) : (s.bumpFresh).utxByte = s.utxByte := rfl
@[simp] theorem bumpFresh_wireOut (s : State) : (s.bumpFresh).wireOut = s.wireOut := rfl
@[simp] theorem bumpFresh_busReplies (s : State) : (s.bumpFresh).busReplies = s.busReplies := rfl
@[simp] theorem bumpFresh_cfg (s : State) : (s.bumpFresh).cfg = s.cfg := rfl
@[simp] theorem bumpFresh_agenda (s : State) : (s.bumpFresh).agenda = s.agenda := rfl
@[simp] theorem bumpFresh_fresh (s : State) : (s.bumpFresh).fresh = s.fresh + 1 := rfl

/-! ### powerReset -/

@[simp] theorem powerReset_ctrl (s : State) : s.powerReset.ctrl = 0x00 := rfl
@[simp] theorem powerReset_done (s : State) : s.powerReset.done = false := rfl
@[simp] theorem powerReset_err (s : State) : s.powerReset.err = false := rfl
@[simp] theorem powerReset_rej (s : State) : s.powerReset.rej = false := rfl
@[simp] theorem powerReset_lineErr (s : State) : s.powerReset.lineErr = false := rfl
@[simp] theorem powerReset_errcode (s : State) : s.powerReset.errcode = 0x00 := rfl
@[simp] theorem powerReset_dest (s : State) : s.powerReset.dest = 0x0F := rfl
@[simp] theorem powerReset_src (s : State) : s.powerReset.src = 0xA1 := rfl
@[simp] theorem powerReset_reg (s : State) : s.powerReset.reg = 0x00 := rfl
@[simp] theorem powerReset_txLen (s : State) : s.powerReset.txLen = 0x00 := rfl
@[simp] theorem powerReset_rxBlen (s : State) : s.powerReset.rxBlen = 0x00 := rfl
@[simp] theorem powerReset_txCrc (s : State) : s.powerReset.txCrc = 0x0000 := rfl
@[simp] theorem powerReset_rxRes (s : State) : s.powerReset.rxRes = 0x0000 := rfl
@[simp] theorem powerReset_toLimit (s : State) : s.powerReset.toLimit = 0xFFFF := rfl
@[simp] theorem powerReset_crcAcc (s : State) : s.powerReset.crcAcc = 0x0000 := rfl
@[simp] theorem powerReset_rxInfo (s : State) : s.powerReset.rxInfo = 0x00 := rfl
@[simp] theorem powerReset_mem (s : State) : s.powerReset.mem = Memory.afterReset s.cfg s.fresh := rfl
@[simp] theorem powerReset_phase (s : State) : s.powerReset.phase = .idle := rfl
@[simp] theorem powerReset_op (s : State) : s.powerReset.op = Config.resetOp s.fresh := rfl
@[simp] theorem powerReset_txFrame (s : State) : s.powerReset.txFrame = [] := rfl
@[simp] theorem powerReset_txIdx (s : State) : s.powerReset.txIdx = 0 := rfl
@[simp] theorem powerReset_rxEsc (s : State) : s.powerReset.rxEsc = false := rfl
@[simp] theorem powerReset_rxCnt (s : State) : s.powerReset.rxCnt = 0 := rfl
@[simp] theorem powerReset_rxCrc (s : State) : s.powerReset.rxCrc = 0x0000 := rfl
@[simp] theorem powerReset_toCnt (s : State) : s.powerReset.toCnt = 0x0000 := rfl
@[simp] theorem powerReset_utxBusy (s : State) : s.powerReset.utxBusy = false := rfl
@[simp] theorem powerReset_utxByte (s : State) : s.powerReset.utxByte = Config.resetUtxByte s.fresh := rfl
@[simp] theorem powerReset_wireOut (s : State) : s.powerReset.wireOut = s.wireOut := rfl
@[simp] theorem powerReset_busReplies (s : State) : s.powerReset.busReplies = s.busReplies := rfl
@[simp] theorem powerReset_cfg (s : State) : s.powerReset.cfg = s.cfg := rfl
@[simp] theorem powerReset_agenda (s : State) : s.powerReset.agenda = s.agenda := rfl
@[simp] theorem powerReset_fresh (s : State) : s.powerReset.fresh = s.fresh + 1 := rfl

/-! ### advanceTx: the index always advances; the phase and the count change after the last byte -/

@[simp] theorem advanceTx_ctrl (s : State) : s.advanceTx.ctrl = s.ctrl := by
  unfold State.advanceTx; split <;> rfl
@[simp] theorem advanceTx_done (s : State) : s.advanceTx.done = s.done := by
  unfold State.advanceTx; split <;> rfl
@[simp] theorem advanceTx_err (s : State) : s.advanceTx.err = s.err := by
  unfold State.advanceTx; split <;> rfl
@[simp] theorem advanceTx_rej (s : State) : s.advanceTx.rej = s.rej := by
  unfold State.advanceTx; split <;> rfl
@[simp] theorem advanceTx_lineErr (s : State) : s.advanceTx.lineErr = s.lineErr := by
  unfold State.advanceTx; split <;> rfl
@[simp] theorem advanceTx_errcode (s : State) : s.advanceTx.errcode = s.errcode := by
  unfold State.advanceTx; split <;> rfl
@[simp] theorem advanceTx_dest (s : State) : s.advanceTx.dest = s.dest := by
  unfold State.advanceTx; split <;> rfl
@[simp] theorem advanceTx_src (s : State) : s.advanceTx.src = s.src := by
  unfold State.advanceTx; split <;> rfl
@[simp] theorem advanceTx_reg (s : State) : s.advanceTx.reg = s.reg := by
  unfold State.advanceTx; split <;> rfl
@[simp] theorem advanceTx_txLen (s : State) : s.advanceTx.txLen = s.txLen := by
  unfold State.advanceTx; split <;> rfl
@[simp] theorem advanceTx_rxBlen (s : State) : s.advanceTx.rxBlen = s.rxBlen := by
  unfold State.advanceTx; split <;> rfl
@[simp] theorem advanceTx_txCrc (s : State) : s.advanceTx.txCrc = s.txCrc := by
  unfold State.advanceTx; split <;> rfl
@[simp] theorem advanceTx_rxRes (s : State) : s.advanceTx.rxRes = s.rxRes := by
  unfold State.advanceTx; split <;> rfl
@[simp] theorem advanceTx_toLimit (s : State) : s.advanceTx.toLimit = s.toLimit := by
  unfold State.advanceTx; split <;> rfl
@[simp] theorem advanceTx_crcAcc (s : State) : s.advanceTx.crcAcc = s.crcAcc := by
  unfold State.advanceTx; split <;> rfl
@[simp] theorem advanceTx_rxInfo (s : State) : s.advanceTx.rxInfo = s.rxInfo := by
  unfold State.advanceTx; split <;> rfl
@[simp] theorem advanceTx_mem (s : State) : s.advanceTx.mem = s.mem := by
  unfold State.advanceTx; split <;> rfl
@[simp] theorem advanceTx_op (s : State) : s.advanceTx.op = s.op := by
  unfold State.advanceTx; split <;> rfl
@[simp] theorem advanceTx_txFrame (s : State) : s.advanceTx.txFrame = s.txFrame := by
  unfold State.advanceTx; split <;> rfl
@[simp] theorem advanceTx_rxEsc (s : State) : s.advanceTx.rxEsc = s.rxEsc := by
  unfold State.advanceTx; split <;> rfl
@[simp] theorem advanceTx_rxCnt (s : State) : s.advanceTx.rxCnt = s.rxCnt := by
  unfold State.advanceTx; split <;> rfl
@[simp] theorem advanceTx_rxCrc (s : State) : s.advanceTx.rxCrc = s.rxCrc := by
  unfold State.advanceTx; split <;> rfl
@[simp] theorem advanceTx_utxBusy (s : State) : s.advanceTx.utxBusy = s.utxBusy := by
  unfold State.advanceTx; split <;> rfl
@[simp] theorem advanceTx_utxByte (s : State) : s.advanceTx.utxByte = s.utxByte := by
  unfold State.advanceTx; split <;> rfl
@[simp] theorem advanceTx_wireOut (s : State) : s.advanceTx.wireOut = s.wireOut := by
  unfold State.advanceTx; split <;> rfl
@[simp] theorem advanceTx_busReplies (s : State) : s.advanceTx.busReplies = s.busReplies := by
  unfold State.advanceTx; split <;> rfl
@[simp] theorem advanceTx_cfg (s : State) : s.advanceTx.cfg = s.cfg := by
  unfold State.advanceTx; split <;> rfl
@[simp] theorem advanceTx_agenda (s : State) : s.advanceTx.agenda = s.agenda := by
  unfold State.advanceTx; split <;> rfl
@[simp] theorem advanceTx_fresh (s : State) : s.advanceTx.fresh = s.fresh := by
  unfold State.advanceTx; split <;> rfl
@[simp] theorem advanceTx_txIdx (s : State) : s.advanceTx.txIdx = s.txIdx + 1 := by
  unfold State.advanceTx; split <;> rfl
theorem advanceTx_phase (s : State) : s.advanceTx.phase =
    if s.txIdx + 1 = s.txFrame.length then .awaitStart else s.phase := by
  unfold State.advanceTx; split <;> rfl
theorem advanceTx_toCnt (s : State) : s.advanceTx.toCnt =
    if s.txIdx + 1 = s.txFrame.length then 0x0000 else s.toCnt := by
  unfold State.advanceTx; split <;> rfl

/-! ### putBack: only the agenda can change -/

@[simp] theorem putBack_ctrl (s : State) (f : Format) (r : List Byte) :
    (s.putBack f r).ctrl = s.ctrl := by
  cases r <;> rfl
@[simp] theorem putBack_done (s : State) (f : Format) (r : List Byte) :
    (s.putBack f r).done = s.done := by
  cases r <;> rfl
@[simp] theorem putBack_err (s : State) (f : Format) (r : List Byte) :
    (s.putBack f r).err = s.err := by
  cases r <;> rfl
@[simp] theorem putBack_rej (s : State) (f : Format) (r : List Byte) :
    (s.putBack f r).rej = s.rej := by
  cases r <;> rfl
@[simp] theorem putBack_lineErr (s : State) (f : Format) (r : List Byte) :
    (s.putBack f r).lineErr = s.lineErr := by
  cases r <;> rfl
@[simp] theorem putBack_errcode (s : State) (f : Format) (r : List Byte) :
    (s.putBack f r).errcode = s.errcode := by
  cases r <;> rfl
@[simp] theorem putBack_dest (s : State) (f : Format) (r : List Byte) :
    (s.putBack f r).dest = s.dest := by
  cases r <;> rfl
@[simp] theorem putBack_src (s : State) (f : Format) (r : List Byte) :
    (s.putBack f r).src = s.src := by
  cases r <;> rfl
@[simp] theorem putBack_reg (s : State) (f : Format) (r : List Byte) :
    (s.putBack f r).reg = s.reg := by
  cases r <;> rfl
@[simp] theorem putBack_txLen (s : State) (f : Format) (r : List Byte) :
    (s.putBack f r).txLen = s.txLen := by
  cases r <;> rfl
@[simp] theorem putBack_rxBlen (s : State) (f : Format) (r : List Byte) :
    (s.putBack f r).rxBlen = s.rxBlen := by
  cases r <;> rfl
@[simp] theorem putBack_txCrc (s : State) (f : Format) (r : List Byte) :
    (s.putBack f r).txCrc = s.txCrc := by
  cases r <;> rfl
@[simp] theorem putBack_rxRes (s : State) (f : Format) (r : List Byte) :
    (s.putBack f r).rxRes = s.rxRes := by
  cases r <;> rfl
@[simp] theorem putBack_toLimit (s : State) (f : Format) (r : List Byte) :
    (s.putBack f r).toLimit = s.toLimit := by
  cases r <;> rfl
@[simp] theorem putBack_crcAcc (s : State) (f : Format) (r : List Byte) :
    (s.putBack f r).crcAcc = s.crcAcc := by
  cases r <;> rfl
@[simp] theorem putBack_rxInfo (s : State) (f : Format) (r : List Byte) :
    (s.putBack f r).rxInfo = s.rxInfo := by
  cases r <;> rfl
@[simp] theorem putBack_mem (s : State) (f : Format) (r : List Byte) :
    (s.putBack f r).mem = s.mem := by
  cases r <;> rfl
@[simp] theorem putBack_phase (s : State) (f : Format) (r : List Byte) :
    (s.putBack f r).phase = s.phase := by
  cases r <;> rfl
@[simp] theorem putBack_op (s : State) (f : Format) (r : List Byte) :
    (s.putBack f r).op = s.op := by
  cases r <;> rfl
@[simp] theorem putBack_txFrame (s : State) (f : Format) (r : List Byte) :
    (s.putBack f r).txFrame = s.txFrame := by
  cases r <;> rfl
@[simp] theorem putBack_txIdx (s : State) (f : Format) (r : List Byte) :
    (s.putBack f r).txIdx = s.txIdx := by
  cases r <;> rfl
@[simp] theorem putBack_rxEsc (s : State) (f : Format) (r : List Byte) :
    (s.putBack f r).rxEsc = s.rxEsc := by
  cases r <;> rfl
@[simp] theorem putBack_rxCnt (s : State) (f : Format) (r : List Byte) :
    (s.putBack f r).rxCnt = s.rxCnt := by
  cases r <;> rfl
@[simp] theorem putBack_rxCrc (s : State) (f : Format) (r : List Byte) :
    (s.putBack f r).rxCrc = s.rxCrc := by
  cases r <;> rfl
@[simp] theorem putBack_toCnt (s : State) (f : Format) (r : List Byte) :
    (s.putBack f r).toCnt = s.toCnt := by
  cases r <;> rfl
@[simp] theorem putBack_utxBusy (s : State) (f : Format) (r : List Byte) :
    (s.putBack f r).utxBusy = s.utxBusy := by
  cases r <;> rfl
@[simp] theorem putBack_utxByte (s : State) (f : Format) (r : List Byte) :
    (s.putBack f r).utxByte = s.utxByte := by
  cases r <;> rfl
@[simp] theorem putBack_wireOut (s : State) (f : Format) (r : List Byte) :
    (s.putBack f r).wireOut = s.wireOut := by
  cases r <;> rfl
@[simp] theorem putBack_busReplies (s : State) (f : Format) (r : List Byte) :
    (s.putBack f r).busReplies = s.busReplies := by
  cases r <;> rfl
@[simp] theorem putBack_cfg (s : State) (f : Format) (r : List Byte) :
    (s.putBack f r).cfg = s.cfg := by
  cases r <;> rfl
@[simp] theorem putBack_fresh (s : State) (f : Format) (r : List Byte) :
    (s.putBack f r).fresh = s.fresh := by
  cases r <;> rfl
@[simp] theorem putBack_nil (s : State) (f : Format) : s.putBack f [] = s := rfl

end Sys2Proof.Machine
end

