-- ==== Sys2Proof/Laws/Ops.lean ====
section
/-!
SUPPORT. What each shared operation can do, said once, and from it what any instruction can do.
-/

namespace Sys2Proof.Machine

/-! ### Shared operations -/

theorem operandWrite_idle {u : State → State} {s : State} (h : s.phase = .idle) :
    operandWrite u s = .next (u s) := if_pos h

theorem operandWrite_busy {u : State → State} {s : State} (h : s.phase ≠ .idle) :
    operandWrite u s = .next s.reject := if_neg h

/-- An operand write stores while IDLE and is rejected while BUSY. -/
theorem operandWrite_cases {u : State → State} {s t : State} (h : operandWrite u s = .next t) :
    (s.phase = .idle ∧ t = u s) ∨ (s.phase ≠ .idle ∧ t = s.reject) := by
  by_cases hp : s.phase = .idle
  · rw [operandWrite_idle hp] at h; cases h; exact .inl ⟨hp, rfl⟩
  · rw [operandWrite_busy hp] at h; cases h; exact .inr ⟨hp, rfl⟩

theorem issue_busy {s : State} {o : Op} (h : s.phase ≠ .idle) : s.issue o = s.reject := if_pos h

theorem issue_range {s : State} {o : Op} (h : s.phase = .idle)
    (hs : s.src.toNat < Config.srcMin.toNat) : s.issue o = (s.accept o).complete .srcRange := by
  simp only [State.issue, h, ne_eq, not_true_eq_false, if_false, if_pos hs]

theorem issue_frame {s : State} {o : Op} (h : s.phase = .idle)
    (hs : Config.srcMin.toNat ≤ s.src.toNat) :
    s.issue o = (s.accept o).startFrame (telegramCode o) (s.payload o) := by
  simp only [State.issue, h, ne_eq, not_true_eq_false, if_false, if_neg (Nat.not_lt.2 hs)]

/-- A command is rejected, completes with SRC_RANGE, or starts a frame. -/
theorem issue_cases (s : State) (o : Op) :
    (s.phase ≠ .idle ∧ s.issue o = s.reject) ∨
    (s.phase = .idle ∧ s.src.toNat < Config.srcMin.toNat ∧
      s.issue o = (s.accept o).complete .srcRange) ∨
    (s.phase = .idle ∧ Config.srcMin.toNat ≤ s.src.toNat ∧
      s.issue o = (s.accept o).startFrame (telegramCode o) (s.payload o)) := by
  by_cases h : s.phase = .idle
  · rcases Nat.lt_or_ge s.src.toNat Config.srcMin.toNat with hs | hs
    · exact .inr (.inl ⟨h, hs, issue_range h hs⟩)
    · exact .inr (.inr ⟨h, hs, issue_frame h hs⟩)
  · exact .inl ⟨h, issue_busy h⟩

/-- TX_EMIT hands over the byte at the index, or the index is no index of the frame. -/
theorem txEmit_cases (s : State) :
    (∃ b, s.txFrame[s.txIdx]? = some b ∧ txEmit s = .next (s.lineSend b).advanceTx) ∨
    (s.txFrame.length ≤ s.txIdx ∧ txEmit s = .fault .txIndexOutsideFrame) := by
  unfold txEmit
  cases h : s.txFrame[s.txIdx]? with
  | some b => exact .inl ⟨b, rfl, rfl⟩
  | none => exact .inr ⟨List.getElem?_eq_none_iff.1 h, rfl⟩

/-- A body byte is stored decoded, or is an ESC that waits for its second byte. -/
theorem bodyByte_cases (s : State) (b : Byte) :
    (s.rxEsc = true ∧ s.bodyByte b = (s.setRxEsc false).store (b - 0x40)) ∨
    (s.rxEsc = false ∧ b = escByteMark ∧ s.bodyByte b = s.setRxEsc true) ∨
    (s.rxEsc = false ∧ b ≠ escByteMark ∧ s.bodyByte b = (s.setRxEsc false).store b) := by
  unfold State.bodyByte
  cases he : s.rxEsc with
  | true => exact .inl ⟨rfl, rfl⟩
  | false =>
    by_cases hb : b = escByteMark
    · refine .inr (.inl ⟨rfl, hb, ?_⟩)
      simp only [unescapeStep, if_pos hb]
    · refine .inr (.inr ⟨rfl, hb, ?_⟩)
      simp only [unescapeStep, if_neg hb]

/-- A delivered byte is discarded, opens the body, ends it, or belongs to it. -/
theorem lineRecv_cases (s : State) (b : Byte) :
    s.lineRecv b = s ∨
    (s.phase = .awaitStart ∧ b = startByte ∧ s.lineRecv b = s.openBody) ∨
    (s.phase = .recvBody ∧ b = endByte ∧ s.lineRecv b = s.endBody) ∨
    (s.phase = .recvBody ∧ b ≠ endByte ∧ s.lineRecv b = s.bodyByte b) := by
  unfold State.lineRecv
  cases hp : s.phase with
  | idle => exact .inl rfl
  | framing => exact .inl rfl
  | validating => exact .inl rfl
  | awaitStart =>
    by_cases hb : b = startByte
    · exact .inr (.inl ⟨rfl, hb, if_pos hb⟩)
    · exact .inl (if_neg hb)
  | recvBody =>
    by_cases hb : b = endByte
    · exact .inr (.inr (.inl ⟨rfl, hb, if_pos hb⟩))
    · exact .inr (.inr (.inr ⟨rfl, hb, if_neg hb⟩))

@[simp] theorem lineRecvAll_nil (s : State) : s.lineRecvAll [] = s := rfl

@[simp] theorem lineRecvAll_cons (s : State) (b : Byte) (bs : List Byte) :
    s.lineRecvAll (b :: bs) = (s.lineRecv b).lineRecvAll bs := rfl

theorem lineRecvAll_append (s : State) (bs cs : List Byte) :
    s.lineRecvAll (bs ++ cs) = (s.lineRecvAll bs).lineRecvAll cs := List.foldl_append

/-- What every delivered byte keeps, every sequence of bytes keeps. -/
theorem lineRecvAll_keeps {P : State → Prop} (hP : ∀ s b, P s → P (s.lineRecv b)) {s : State}
    (bs : List Byte) (h : P s) : P (s.lineRecvAll bs) := by
  induction bs generalizing s with
  | nil => exact h
  | cons b bs ih => exact ih (hP s b h)

/-- What the four things a delivered byte can do keep, every sequence of bytes keeps. -/
theorem reception_keeps {P : State → Prop}
    (hopen : ∀ s : State, s.phase = .awaitStart → P s → P s.openBody)
    (hend : ∀ s : State, s.phase = .recvBody → P s → P s.endBody)
    (hesc : ∀ (s : State) (e : Bool), s.phase = .recvBody → P s → P (s.setRxEsc e))
    (hstore : ∀ (s : State) (d : Byte), s.phase = .recvBody → P s → P (s.store d))
    {s : State} (bs : List Byte) (h : P s) : P (s.lineRecvAll bs) := by
  refine lineRecvAll_keeps (fun s b h => ?_) bs h
  rcases lineRecv_cases s b with e | ⟨hp, _, e⟩ | ⟨hp, _, e⟩ | ⟨hp, _, e⟩ <;> rw [e]
  · exact h
  · exact hopen _ hp h
  · exact hend _ hp h
  · rcases bodyByte_cases s b with ⟨_, e⟩ | ⟨_, _, e⟩ | ⟨_, _, e⟩ <;> rw [e]
    · exact hstore _ _ hp (hesc _ _ hp h)
    · exact hesc _ _ hp h
    · exact hstore _ _ hp (hesc _ _ hp h)

/-- VALIDATE completes: with a structural code and RX_INFO as it was, or with the class of the
response's type and RX_INFO computed. -/
theorem validate_cases (s : State) (t : Byte) :
    (∃ c, (c = .danglingEsc ∨ c = .overflow ∨ c = .shortFrame ∨ c = .crcMismatch) ∧
      s.validate t = s.publish.complete c) ∨
    (s.rxEsc = false ∧ s.rxCnt ≤ s.cfg.rxbuf ∧ 6 ≤ s.rxCnt ∧ s.rxCrc = 0x0000 ∧
      s.validate t = (s.publish.setRxInfo s.info).complete (classify s.op t)) := by
  unfold State.validate
  by_cases h1 : s.rxEsc = true
  · exact .inl ⟨_, .inl rfl, if_pos h1⟩
  by_cases h2 : s.cfg.rxbuf < s.rxCnt
  · exact .inl ⟨_, .inr (.inl rfl), by rw [if_neg h1, if_pos h2]⟩
  by_cases h3 : s.rxCnt < 6
  · exact .inl ⟨_, .inr (.inr (.inl rfl)), by rw [if_neg h1, if_neg h2, if_pos h3]⟩
  by_cases h4 : s.rxCrc = 0x0000
  · refine .inr ⟨by simpa using h1, Nat.not_lt.1 h2, Nat.not_lt.1 h3, h4, ?_⟩
    rw [if_neg h1, if_neg h2, if_neg h3, if_neg (not_not_intro h4)]
  · exact .inl ⟨_, .inr (.inr (.inr rfl)), by rw [if_neg h1, if_neg h2, if_neg h3, if_pos h4]⟩

/-- A response is validated in VALIDATING and does nothing in another phase. -/
theorem response_cases (s : State) (t : Byte) :
    (s.phase = .validating ∧ s.response t = s.validate t) ∨
    (s.phase ≠ .validating ∧ s.response t = s) := by
  by_cases h : s.phase = .validating
  · exact .inl ⟨h, if_pos h⟩
  · exact .inr ⟨h, if_neg h⟩

/-- A tick of a delimiter wait counts, and completes when the limit is reached. -/
theorem countTick_cases (s : State) (c : ErrCode) :
    (s.toLimit.toNat ≤ (countUp s.toCnt).toNat ∧
      s.countTick c = (s.setToCnt (countUp s.toCnt)).complete c) ∨
    ((countUp s.toCnt).toNat < s.toLimit.toNat ∧ s.countTick c = s.setToCnt (countUp s.toCnt)) := by
  unfold State.countTick State.expired
  rcases Nat.lt_or_ge (countUp s.toCnt).toNat s.toLimit.toNat with h | h
  · exact .inr ⟨h, by rw [if_neg (by simpa using h)]⟩
  · exact .inl ⟨h, by rw [if_pos (by simpa using h)]⟩

/-- A tick counts in the two delimiter waits and does nothing in another phase. -/
theorem tick_cases (s : State) :
    (s.phase = .awaitStart ∧ s.tick = s.countTick .timeoutStart) ∨
    (s.phase = .recvBody ∧ s.tick = s.countTick .timeoutEnd) ∨
    (s.phase ≠ .awaitStart ∧ s.phase ≠ .recvBody ∧ s.tick = s) := by
  unfold State.tick
  cases s.phase with
  | awaitStart => exact .inl ⟨rfl, rfl⟩
  | recvBody => exact .inr (.inl ⟨rfl, rfl⟩)
  | idle => exact .inr (.inr ⟨by decide, by decide, rfl⟩)
  | framing => exact .inr (.inr ⟨by decide, by decide, rfl⟩)
  | validating => exact .inr (.inr ⟨by decide, by decide, rfl⟩)

/-- The saturating count goes up by at most one. -/
theorem countUp_toNat (c : Word16) : (countUp c).toNat = min (c.toNat + 1) 0xFFFF := by
  unfold countUp
  have hc := c.isLt
  by_cases h : c = 0xFFFF
  · rw [if_pos h, h]; rfl
  · rw [if_neg h]
    have hn : c.toNat ≠ 65535 := fun hn => h (BitVec.eq_of_toNat_eq hn)
    have h1 : (1 : Word16).toNat = 1 := rfl
    rw [BitVec.toNat_add, h1]
    omega

/-! ### What an instruction can do -/

/-- What the instruction i can do to the state s: the update, and what it says of i. -/
inductive Effect (i : Instr) (s : State) : State → Prop where
  | same : Effect i s s
  | reply (v : Byte) : Effect i s (s.pushReply v)
  | reserved (h : ReservedCommand i) : Effect i s s.reject
  | refused (hp : s.phase ≠ .idle) (h : OperandWrite s.cfg i) : Effect i s s.reject
  | ctrl (d : Byte) : Effect i s (s.setCtrl d)
  | flags (d : Byte) : Effect i s (s.clearFlags d)
  | crcAcc (d : Byte) (h : i = .wrCrcAccHi d ∨ i = .wrCrcAccLo d ∨ i = .wrCrcIn d) (c : Word16) :
      Effect i s (s.setCrcAcc c)
  | dest (h : s.phase = .idle) (d : Byte) : Effect i s (s.setDest d)
  | src (h : s.phase = .idle) (d : Byte) : Effect i s (s.setSrc d)
  | reg (h : s.phase = .idle) (d : Byte) : Effect i s (s.setReg d)
  | txLen (h : s.phase = .idle) (d : Byte) : Effect i s (s.setTxLen d)
  | toLimitHi (h : s.phase = .idle) (d : Byte) : Effect i s (s.setToLimitHi d)
  | toLimitLo (h : s.phase = .idle) (d : Byte) : Effect i s (s.setToLimitLo d)
  | txbuf (h : s.phase = .idle) (k : Nat) (hk : k < s.cfg.txbuf) (d : Byte) :
      Effect i s (s.setTxbuf k d)
  | issue (o : Op) (h : commandOf i = some o) : Effect i s (s.issue o)
  | response (h : i.format = .rsp) (t : Byte) : Effect i s (s.response t)
  | line (h : i.format = .sym ∨ i.format = .char) (bs : List Byte) : Effect i s (s.lineRecvAll bs)

/-- An operand write makes its update, which is an effect while IDLE, or is refused while BUSY. -/
theorem operandWrite_effect {i : Instr} {u : State → State} {s t : State}
    (h : operandWrite u s = .next t) (hi : OperandWrite s.cfg i)
    (hu : s.phase = .idle → Effect i s (u s)) : Effect i s t := by
  rcases operandWrite_cases h with ⟨hp, rfl⟩ | ⟨hp, rfl⟩
  · exact hu hp
  · exact .refused hp hi

theorem effect_of_next {i : Instr} {s t u : State} (h : (.next u : Result) = .next t)
    (hu : Effect i s u) : Effect i s t := by
  cases h; exact hu

/-- Every instruction that answers a next state makes one of the updates of Effect. -/
theorem exec_effect {i : Instr} {s t : State} (h : exec i s = .next t) : Effect i s t := by
  cases i with
  | nop => exact effect_of_next h .same
  | read => exact effect_of_next h (.issue .read rfl)
  | write => exact effect_of_next h (.issue .write rfl)
  | cmdRsv03 => exact effect_of_next h (.reserved (.inl rfl))
  | cmdRsv op rsv => exact effect_of_next h (.reserved (.inr (.inl ⟨op, rsv, rfl⟩)))
  | rdCtrl => exact effect_of_next h (.reply _)
  | wrCtrl d => exact effect_of_next h (.ctrl d)
  | rdCmd => exact effect_of_next h (.reply _)
  | wrCmdNop => exact effect_of_next h .same
  | wrCmdRead => exact effect_of_next h (.issue .read rfl)
  | wrCmdWrite => exact effect_of_next h (.issue .write rfl)
  | wrCmdRsv d => exact effect_of_next h (.reserved (.inr (.inr ⟨d, rfl⟩)))
  | rdStatus => exact effect_of_next h (.reply _)
  | wrStatus d => exact effect_of_next h (.flags d)
  | rdErrcode => exact effect_of_next h (.reply _)
  | wrErrcode d => exact effect_of_next h .same
  | rdDest => exact effect_of_next h (.reply _)
  | wrDest d => exact operandWrite_effect (u := fun t => t.setDest d) h (.inl ⟨d, by simp⟩) fun hp => .dest hp d
  | rdSrc => exact effect_of_next h (.reply _)
  | wrSrc d => exact operandWrite_effect (u := fun t => t.setSrc d) h (.inl ⟨d, by simp⟩) fun hp => .src hp d
  | rdReg => exact effect_of_next h (.reply _)
  | wrReg d => exact operandWrite_effect (u := fun t => t.setReg d) h (.inl ⟨d, by simp⟩) fun hp => .reg hp d
  | rdTxLen => exact effect_of_next h (.reply _)
  | wrTxLen d => exact operandWrite_effect (u := fun t => t.setTxLen d) h (.inl ⟨d, by simp⟩) fun hp => .txLen hp d
  | rdToLimitHi => exact effect_of_next h (.reply _)
  | wrToLimitHi d => exact operandWrite_effect (u := fun t => t.setToLimitHi d) h (.inl ⟨d, by simp⟩) fun hp => .toLimitHi hp d
  | rdToLimitLo => exact effect_of_next h (.reply _)
  | wrToLimitLo d => exact operandWrite_effect (u := fun t => t.setToLimitLo d) h (.inl ⟨d, by simp⟩) fun hp => .toLimitLo hp d
  | rdRxBlen => exact effect_of_next h (.reply _)
  | wrRxBlen d => exact effect_of_next h .same
  | rdTxCrcHi => exact effect_of_next h (.reply _)
  | wrTxCrcHi d => exact effect_of_next h .same
  | rdTxCrcLo => exact effect_of_next h (.reply _)
  | wrTxCrcLo d => exact effect_of_next h .same
  | rdRxResHi => exact effect_of_next h (.reply _)
  | wrRxResHi d => exact effect_of_next h .same
  | rdRxResLo => exact effect_of_next h (.reply _)
  | wrRxResLo d => exact effect_of_next h .same
  | rdRxInfo => exact effect_of_next h (.reply _)
  | wrRxInfo d => exact effect_of_next h .same
  | rdCrcAccHi => exact effect_of_next h (.reply _)
  | wrCrcAccHi d => exact effect_of_next h (.crcAcc d (by simp) _)
  | rdCrcAccLo => exact effect_of_next h (.reply _)
  | wrCrcAccLo d => exact effect_of_next h (.crcAcc d (by simp) _)
  | rdCrcIn => exact effect_of_next h (.reply _)
  | wrCrcIn d => exact effect_of_next h (.crcAcc d (by simp) _)
  | rdRsv13 => exact effect_of_next h (.reply _)
  | wrRsv13 d => exact effect_of_next h .same
  | rdRsv14 => exact effect_of_next h (.reply _)
  | wrRsv14 d => exact effect_of_next h .same
  | rdRsv15 => exact effect_of_next h (.reply _)
  | wrRsv15 d => exact effect_of_next h .same
  | rdRsv16 => exact effect_of_next h (.reply _)
  | wrRsv16 d => exact effect_of_next h .same
  | rdRsv17 => exact effect_of_next h (.reply _)
  | wrRsv17 d => exact effect_of_next h .same
  | rdRsv18 => exact effect_of_next h (.reply _)
  | wrRsv18 d => exact effect_of_next h .same
  | rdRsv19 => exact effect_of_next h (.reply _)
  | wrRsv19 d => exact effect_of_next h .same
  | rdRsv1A => exact effect_of_next h (.reply _)
  | wrRsv1A d => exact effect_of_next h .same
  | rdRsv1B => exact effect_of_next h (.reply _)
  | wrRsv1B d => exact effect_of_next h .same
  | rdRsv1C => exact effect_of_next h (.reply _)
  | wrRsv1C d => exact effect_of_next h .same
  | rdRsv1D => exact effect_of_next h (.reply _)
  | wrRsv1D d => exact effect_of_next h .same
  | rdRsv1E => exact effect_of_next h (.reply _)
  | wrRsv1E d => exact effect_of_next h .same
  | rdRsv1F => exact effect_of_next h (.reply _)
  | wrRsv1F d => exact effect_of_next h .same
  | rdTxbuf i => exact effect_of_next h (.reply _)
  | wrTxbuf i d => 
    change (if i.toNat < s.cfg.txbuf then operandWrite (fun t => t.setTxbuf i.toNat d) s
      else ignoreWrite s) = _ at h
    by_cases hi : i.toNat < s.cfg.txbuf
    · rw [if_pos hi] at h
      exact operandWrite_effect h (.inr ⟨i, d, rfl, hi⟩) fun hp => .txbuf hp i.toNat hi d
    · rw [if_neg hi] at h
      exact effect_of_next h .same
  | rdRxbuf i => exact effect_of_next h (.reply _)
  | wrRxbuf i d => exact effect_of_next h .same
  | reqRead => exact effect_of_next h (.issue .read rfl)
  | reqWrite => exact effect_of_next h (.issue .write rfl)
  | rspNotUnderstood => exact effect_of_next h (.response rfl _)
  | rspCrcError => exact effect_of_next h (.response rfl _)
  | rspBusy => exact effect_of_next h (.response rfl _)
  | rspWriteAck => exact effect_of_next h (.response rfl _)
  | rspReadAck => exact effect_of_next h (.response rfl _)
  | rspReserved t => exact effect_of_next h (.response rfl _)
  | symStart => exact effect_of_next h (.line (.inl rfl) [_])
  | symEnd => exact effect_of_next h (.line (.inl rfl) [_])
  | esc0A => exact effect_of_next h (.line (.inl rfl) _)
  | esc0D => exact effect_of_next h (.line (.inl rfl) _)
  | esc5E => exact effect_of_next h (.line (.inl rfl) _)
  | escNoncanon y => exact effect_of_next h (.line (.inl rfl) _)
  | literal b => exact effect_of_next h (.line (.inl rfl) [_])
  | char b => exact effect_of_next h (.line (.inr rfl) [_])

end Sys2Proof.Machine
end

