-- ==== Sys2Proof/Laws/PerInstr.lean ====
section
/-!
SUPPORT. Statements about every instruction as syntax, one lemma per constructor.

`EncodedLength`: the number of bytes of a well-formed instruction's encoding. A BUS word and a
character word have two (rules R101 and R291), a CMD byte, a command code and a response type have one
(rules R102, R105, R107), and a symbol has two exactly when its first byte is ESC (rules R110 and R111).
-/

namespace Sys2Proof.Laws.EncodedLength

/-- How many bytes an encoding of a format has, given the bytes. -/
def bytesOf : Format → List Byte → Nat
  | .bus, _ => 2
  | .char, _ => 2
  | .cmd, _ => 1
  | .req, _ => 1
  | .rsp, _ => 1
  | .sym, bs => if bs.head? = some 0x5E then 2 else 1

/-- A well-formed instruction is encoded in as many bytes as its format says. -/
def Statement (i : Instr) : Prop := i.wf = true → (encode i).length = bytesOf i.format (encode i)

theorem nop : Statement .nop := fun _ => rfl
theorem read : Statement .read := fun _ => rfl
theorem write : Statement .write := fun _ => rfl
theorem cmdRsv03 : Statement .cmdRsv03 := fun _ => rfl
theorem cmdRsv (op : BitVec 2) (rsv : BitVec 6) : Statement (.cmdRsv op rsv) := fun _ => rfl
theorem rdCtrl : Statement .rdCtrl := fun _ => rfl
theorem wrCtrl (d : Byte) : Statement (.wrCtrl d) := fun _ => rfl
theorem rdCmd : Statement .rdCmd := fun _ => rfl
theorem wrCmdNop : Statement .wrCmdNop := fun _ => rfl
theorem wrCmdRead : Statement .wrCmdRead := fun _ => rfl
theorem wrCmdWrite : Statement .wrCmdWrite := fun _ => rfl
theorem wrCmdRsv (d : Byte) : Statement (.wrCmdRsv d) := fun _ => rfl
theorem rdStatus : Statement .rdStatus := fun _ => rfl
theorem wrStatus (d : Byte) : Statement (.wrStatus d) := fun _ => rfl
theorem rdErrcode : Statement .rdErrcode := fun _ => rfl
theorem wrErrcode (d : Byte) : Statement (.wrErrcode d) := fun _ => rfl
theorem rdDest : Statement .rdDest := fun _ => rfl
theorem wrDest (d : Byte) : Statement (.wrDest d) := fun _ => rfl
theorem rdSrc : Statement .rdSrc := fun _ => rfl
theorem wrSrc (d : Byte) : Statement (.wrSrc d) := fun _ => rfl
theorem rdReg : Statement .rdReg := fun _ => rfl
theorem wrReg (d : Byte) : Statement (.wrReg d) := fun _ => rfl
theorem rdTxLen : Statement .rdTxLen := fun _ => rfl
theorem wrTxLen (d : Byte) : Statement (.wrTxLen d) := fun _ => rfl
theorem rdToLimitHi : Statement .rdToLimitHi := fun _ => rfl
theorem wrToLimitHi (d : Byte) : Statement (.wrToLimitHi d) := fun _ => rfl
theorem rdToLimitLo : Statement .rdToLimitLo := fun _ => rfl
theorem wrToLimitLo (d : Byte) : Statement (.wrToLimitLo d) := fun _ => rfl
theorem rdRxBlen : Statement .rdRxBlen := fun _ => rfl
theorem wrRxBlen (d : Byte) : Statement (.wrRxBlen d) := fun _ => rfl
theorem rdTxCrcHi : Statement .rdTxCrcHi := fun _ => rfl
theorem wrTxCrcHi (d : Byte) : Statement (.wrTxCrcHi d) := fun _ => rfl
theorem rdTxCrcLo : Statement .rdTxCrcLo := fun _ => rfl
theorem wrTxCrcLo (d : Byte) : Statement (.wrTxCrcLo d) := fun _ => rfl
theorem rdRxResHi : Statement .rdRxResHi := fun _ => rfl
theorem wrRxResHi (d : Byte) : Statement (.wrRxResHi d) := fun _ => rfl
theorem rdRxResLo : Statement .rdRxResLo := fun _ => rfl
theorem wrRxResLo (d : Byte) : Statement (.wrRxResLo d) := fun _ => rfl
theorem rdRxInfo : Statement .rdRxInfo := fun _ => rfl
theorem wrRxInfo (d : Byte) : Statement (.wrRxInfo d) := fun _ => rfl
theorem rdCrcAccHi : Statement .rdCrcAccHi := fun _ => rfl
theorem wrCrcAccHi (d : Byte) : Statement (.wrCrcAccHi d) := fun _ => rfl
theorem rdCrcAccLo : Statement .rdCrcAccLo := fun _ => rfl
theorem wrCrcAccLo (d : Byte) : Statement (.wrCrcAccLo d) := fun _ => rfl
theorem rdCrcIn : Statement .rdCrcIn := fun _ => rfl
theorem wrCrcIn (d : Byte) : Statement (.wrCrcIn d) := fun _ => rfl
theorem rdRsv13 : Statement .rdRsv13 := fun _ => rfl
theorem wrRsv13 (d : Byte) : Statement (.wrRsv13 d) := fun _ => rfl
theorem rdRsv14 : Statement .rdRsv14 := fun _ => rfl
theorem wrRsv14 (d : Byte) : Statement (.wrRsv14 d) := fun _ => rfl
theorem rdRsv15 : Statement .rdRsv15 := fun _ => rfl
theorem wrRsv15 (d : Byte) : Statement (.wrRsv15 d) := fun _ => rfl
theorem rdRsv16 : Statement .rdRsv16 := fun _ => rfl
theorem wrRsv16 (d : Byte) : Statement (.wrRsv16 d) := fun _ => rfl
theorem rdRsv17 : Statement .rdRsv17 := fun _ => rfl
theorem wrRsv17 (d : Byte) : Statement (.wrRsv17 d) := fun _ => rfl
theorem rdRsv18 : Statement .rdRsv18 := fun _ => rfl
theorem wrRsv18 (d : Byte) : Statement (.wrRsv18 d) := fun _ => rfl
theorem rdRsv19 : Statement .rdRsv19 := fun _ => rfl
theorem wrRsv19 (d : Byte) : Statement (.wrRsv19 d) := fun _ => rfl
theorem rdRsv1A : Statement .rdRsv1A := fun _ => rfl
theorem wrRsv1A (d : Byte) : Statement (.wrRsv1A d) := fun _ => rfl
theorem rdRsv1B : Statement .rdRsv1B := fun _ => rfl
theorem wrRsv1B (d : Byte) : Statement (.wrRsv1B d) := fun _ => rfl
theorem rdRsv1C : Statement .rdRsv1C := fun _ => rfl
theorem wrRsv1C (d : Byte) : Statement (.wrRsv1C d) := fun _ => rfl
theorem rdRsv1D : Statement .rdRsv1D := fun _ => rfl
theorem wrRsv1D (d : Byte) : Statement (.wrRsv1D d) := fun _ => rfl
theorem rdRsv1E : Statement .rdRsv1E := fun _ => rfl
theorem wrRsv1E (d : Byte) : Statement (.wrRsv1E d) := fun _ => rfl
theorem rdRsv1F : Statement .rdRsv1F := fun _ => rfl
theorem wrRsv1F (d : Byte) : Statement (.wrRsv1F d) := fun _ => rfl
theorem rdTxbuf (i : BitVec 5) : Statement (.rdTxbuf i) := fun _ => rfl
theorem wrTxbuf (i : BitVec 5) (d : Byte) : Statement (.wrTxbuf i d) := fun _ => rfl
theorem rdRxbuf (i : BitVec 6) : Statement (.rdRxbuf i) := fun _ => rfl
theorem wrRxbuf (i : BitVec 6) (d : Byte) : Statement (.wrRxbuf i d) := fun _ => rfl
theorem reqRead : Statement .reqRead := fun _ => rfl
theorem reqWrite : Statement .reqWrite := fun _ => rfl
theorem rspNotUnderstood : Statement .rspNotUnderstood := fun _ => rfl
theorem rspCrcError : Statement .rspCrcError := fun _ => rfl
theorem rspBusy : Statement .rspBusy := fun _ => rfl
theorem rspWriteAck : Statement .rspWriteAck := fun _ => rfl
theorem rspReadAck : Statement .rspReadAck := fun _ => rfl
theorem rspReserved (t : Byte) : Statement (.rspReserved t) := fun _ => rfl
theorem symStart : Statement .symStart := fun _ => rfl
theorem symEnd : Statement .symEnd := fun _ => rfl
theorem esc0A : Statement .esc0A := fun _ => rfl
theorem esc0D : Statement .esc0D := fun _ => rfl
theorem esc5E : Statement .esc5E := fun _ => rfl
theorem escNoncanon (y : Byte) : Statement (.escNoncanon y) := fun _ => rfl
theorem literal (b : Byte) : Statement (.literal b) := by
  intro h
  have hb : b ≠ 0x5E := by rintro rfl; revert h; decide
  simpa [encode, bytesOf, Instr.format] using hb
theorem char (b : Byte) : Statement (.char b) := fun _ => rfl

end Sys2Proof.Laws.EncodedLength
end

