-- ==== Sys2Proof/Laws/Step.lean ====
section
/-!
SUPPORT. What the fetch finds and what a step can do: the fetch changes the agenda and the counter of
free values only, and a step is one instruction, one agent's step, or a new agenda.
-/

namespace Sys2Proof.Machine

/-- u is s with another agenda and another counter of free values. -/
def Scheduled (s u : State) : Prop := ∃ es n, u = { s with agenda := es, fresh := n }

theorem Scheduled.refl (s : State) : Scheduled s s := ⟨s.agenda, s.fresh, rfl⟩

theorem Scheduled.trans {s u v : State} (h : Scheduled s u) (h' : Scheduled u v) : Scheduled s v := by
  obtain ⟨es, n, rfl⟩ := h
  obtain ⟨es', n', rfl⟩ := h'
  exact ⟨es', n', rfl⟩

theorem scheduled_setAgenda (s : State) (es : List Event) : Scheduled s (s.setAgenda es) :=
  ⟨es, s.fresh, rfl⟩

theorem scheduled_bumpFresh (s : State) : Scheduled s s.bumpFresh := ⟨s.agenda, s.fresh + 1, rfl⟩

theorem scheduled_putBack (s : State) (f : Format) (r : List Byte) : Scheduled s (s.putBack f r) := by
  cases r with
  | nil => exact .refl s
  | cons b bs => exact scheduled_setAgenda s _

/-- The state a fetch hands on. -/
def Fetched.state? : Fetched → Option State
  | .instr _ u => some u
  | .agent _ u => some u
  | .queued u => some u
  | .refused _ => none

/-- Why an agent's step may be run in the state u: the condition that enables it. -/
def AgentStep.Enabled (a : AgentStep) (u : State) : Prop :=
  match a with
  | .txEmit => u.phase = .framing ∧ u.utxBusy = false
  | .utxDone => u.utxBusy = true
  | .framingError => True
  | .tick => True
  | .reset => True
  | .disabled => True

theorem fetchCoded_cases (f : Format) (bs : List Byte) (s : State) :
    (∃ i rest, f ≠ .rsp ∧ decode f bs = .ok (i, rest) ∧
      fetchCoded f bs s = .instr i (s.putBack f rest)) ∨
    fetchCoded f bs s = .agent .framingError (s.putBack f (bs.drop 2)) ∨
    (∃ r, fetchCoded f bs s = .refused r) := by
  by_cases hf : f = .rsp
  · subst hf; exact .inr (.inr ⟨_, rfl⟩)
  · have he : fetchCoded f bs s = match decode f bs with
        | .ok (i, rest) => .instr i (s.putBack f rest)
        | .error .stopBitZero => .agent .framingError (s.putBack f (bs.drop 2))
        | .error e => .refused (.undecodable f e) := by
      cases f <;> first | rfl | exact absurd rfl hf
    rw [he]
    cases hd : decode f bs with
    | ok p => exact .inl ⟨p.1, p.2, hf, rfl, rfl⟩
    | error e =>
      cases e with
      | stopBitZero => exact .inr (.inl rfl)
      | _ => exact .inr (.inr ⟨_, rfl⟩)

theorem fetchCoded_scheduled {f : Format} {bs : List Byte} {s u : State}
    (h : (fetchCoded f bs s).state? = some u) : Scheduled s u := by
  rcases fetchCoded_cases f bs s with ⟨i, rest, _, _, he⟩ | he | ⟨r, he⟩ <;> rw [he] at h <;> cases h
  · exact scheduled_putBack ..
  · exact scheduled_putBack ..

theorem fetchMove_scheduled {m : Move} {s u : State} (h : (fetchMove m s).state? = some u) :
    Scheduled s u := by
  cases m with
  | host x => exact fetchCoded_scheduled (f := .bus) (bs := accessBytes x) (s := s) h
  | line e =>
    cases e with
    | byte b => exact fetchCoded_scheduled (f := .char) (bs := charBytes b) (s := s) h
    | framingError => cases h; exact .refl s
  | tick => cases h; exact .refl s
  | rst => cases h; exact .refl s
  | utx =>
    change (if s.utxBusy then Fetched.agent .utxDone s else .agent .disabled s).state? = _ at h
    split at h <;> cases h <;> exact .refl s
  | seq =>
    change (fetchSeq s).state? = _ at h
    unfold fetchSeq at h
    split at h
    · split at h <;> cases h <;> exact .refl s
    all_goals cases h; exact .refl s

/-- The fetch changes the agenda and the counter of free values only. -/
theorem fetch_scheduled {s u : State} (h : (fetch s).state? = some u) : Scheduled s u := by
  unfold fetch at h
  split at h
  · exact (scheduled_bumpFresh s).trans (fetchMove_scheduled h)
  · exact (scheduled_setAgenda s _).trans (fetchCoded_scheduled h)
  · exact (scheduled_setAgenda s _).trans (fetchMove_scheduled h)
  · cases h; exact scheduled_setAgenda s _

theorem fetchCoded_enabled {f : Format} {bs : List Byte} {s u : State} {a : AgentStep}
    (h : fetchCoded f bs s = .agent a u) : a.Enabled u := by
  rcases fetchCoded_cases f bs s with ⟨i, rest, _, _, he⟩ | he | ⟨r, he⟩ <;> rw [he] at h <;> cases h
  exact trivial

theorem fetchMove_enabled {m : Move} {s u : State} {a : AgentStep} (h : fetchMove m s = .agent a u) :
    a.Enabled u := by
  cases m with
  | host x => exact fetchCoded_enabled (f := .bus) (bs := accessBytes x) (s := s) h
  | line e =>
    cases e with
    | byte b => exact fetchCoded_enabled (f := .char) (bs := charBytes b) (s := s) h
    | framingError => cases h; exact trivial
  | tick => cases h; exact trivial
  | rst => cases h; exact trivial
  | utx =>
    change (if s.utxBusy then Fetched.agent .utxDone s else .agent .disabled s) = _ at h
    split at h
    · rename_i hb; cases h; exact hb
    · cases h; exact trivial
  | seq =>
    change fetchSeq s = _ at h
    unfold fetchSeq at h
    split at h
    · rename_i hp
      split at h
      · cases h; exact trivial
      · rename_i hb; cases h; exact ⟨hp, by simpa using hb⟩
    all_goals cases h
    all_goals exact trivial

/-- An agent's step is fetched only where it is enabled. -/
theorem fetch_enabled {s u : State} {a : AgentStep} (h : fetch s = .agent a u) : a.Enabled u := by
  unfold fetch at h
  split at h
  · exact fetchMove_enabled h
  · exact fetchCoded_enabled h
  · exact fetchMove_enabled h
  · cases h

/-- What a step can do: one instruction, one agent's step, or a new agenda. -/
theorem step_cases {s t : State} (h : step s = .next t) :
    (∃ i u, fetch s = .instr i u ∧ Scheduled s u ∧ exec i u = .next t) ∨
    (∃ a u, fetch s = .agent a u ∧ Scheduled s u ∧ a.Enabled u ∧ runAgent a u = .next t) ∨
    Scheduled s t := by
  unfold step at h
  have hs : ∀ u, (fetch s).state? = some u → Scheduled s u := fun u hu => fetch_scheduled hu
  cases hf : fetch s with
  | instr i u => rw [hf] at h hs; exact .inl ⟨i, u, rfl, hs u rfl, h⟩
  | agent a u => rw [hf] at h hs; exact .inr (.inl ⟨a, u, rfl, hs u rfl, fetch_enabled hf, h⟩)
  | queued u => rw [hf] at h hs; cases h; exact .inr (.inr (hs t rfl))
  | refused r => rw [hf] at h; cases h

/-- The same with what the instruction or the agent's step does. -/
theorem step_effect {s t : State} (h : step s = .next t) :
    Scheduled s t ∨
    ∃ u, Scheduled s u ∧
      ((∃ i, s.Fetches i u ∧ Effect i u t) ∨
       (fetch s = .agent .utxDone u ∧ u.utxBusy = true ∧ t = u.utxDone) ∨
       (fetch s = .agent .framingError u ∧ t = u.framingError) ∨
       (fetch s = .agent .tick u ∧ t = u.tick) ∨
       (fetch s = .agent .reset u ∧ t = u.powerReset) ∨
       (fetch s = .agent .txEmit u ∧ u.phase = .framing ∧ u.utxBusy = false ∧
         ∃ b, u.txFrame[u.txIdx]? = some b ∧ t = (u.lineSend b).advanceTx)) := by
  rcases step_cases h with ⟨i, u, hf, hs, he⟩ | ⟨a, u, hf, hs, hen, he⟩ | hs
  · exact .inr ⟨u, hs, .inl ⟨i, hf, exec_effect he⟩⟩
  · cases a with
    | txEmit =>
      have ht : txEmit u = .next t := he
      rcases txEmit_cases u with ⟨b, hb, hx⟩ | ⟨_, hx⟩ <;> rw [hx] at ht <;> cases ht
      exact .inr ⟨u, hs, .inr (.inr (.inr (.inr (.inr ⟨hf, hen.1, hen.2, b, hb, rfl⟩))))⟩
    | utxDone => cases he; exact .inr ⟨u, hs, .inr (.inl ⟨hf, hen, rfl⟩)⟩
    | framingError => cases he; exact .inr ⟨u, hs, .inr (.inr (.inl ⟨hf, rfl⟩))⟩
    | tick => cases he; exact .inr ⟨u, hs, .inr (.inr (.inr (.inl ⟨hf, rfl⟩)))⟩
    | reset => cases he; exact .inr ⟨u, hs, .inr (.inr (.inr (.inr (.inl ⟨hf, rfl⟩))))⟩
    | disabled => cases he; exact .inl hs
  · exact .inl hs

/-- What the scheduling, every effect of an instruction and every agent's step keep, every step keeps:
the one induction behind an invariant. -/
theorem step_keeps {P : State → Prop}
    (hsched : ∀ s u, Scheduled s u → P s → P u)
    (heffect : ∀ i s t, Effect i s t → P s → P t)
    (hutx : ∀ s : State, s.utxBusy = true → P s → P s.utxDone)
    (herror : ∀ s, P s → P (State.framingError s))
    (htick : ∀ s, P s → P (State.tick s))
    (hreset : ∀ s, P s → P (State.powerReset s))
    (hemit : ∀ (s : State) (b : Byte), s.phase = .framing → s.utxBusy = false →
      s.txFrame[s.txIdx]? = some b → P s → P (s.lineSend b).advanceTx)
    {s t : State} (hs : P s) (h : step s = .next t) : P t := by
  rcases step_effect h with hu | ⟨u, hu, hc⟩
  · exact hsched s t hu hs
  · have hp := hsched s u hu hs
    rcases hc with ⟨i, _, he⟩ | ⟨_, hb, rfl⟩ | ⟨_, rfl⟩ | ⟨_, rfl⟩ | ⟨_, rfl⟩ | ⟨_, hf, hb, b, hx, rfl⟩
    · exact heffect _ _ _ he hp
    · exact hutx _ hb hp
    · exact herror _ hp
    · exact htick _ hp
    · exact hreset _ hp
    · exact hemit _ _ hf hb hx hp

end Sys2Proof.Machine
end

