-- ==== Sys2Proof/Tests/Slice0.lean ====
section
/-!
SUPPORT. Tests of the model, and witnesses for the statements. Expected values are the vectors of
spec/95_test_vectors.md (its section is named), or worked out by hand from the rule named.
-/

namespace Sys2Proof.Tests

open Sys2Proof Sys2Proof.Machine

/-! ## Well-formedness: each check refuses an ill-formed term -/

/-- Rule R103: CMD_RSV is 0x04 to 0xFF, so RSV is not 0. -/
theorem test_wf_cmdRsv : (Instr.cmdRsv 3 0).wf = false ∧ (Instr.cmdRsv 0 1).wf = true := by decide

/-- Rule R204: 0x00 to 0x02 have rows of their own. -/
theorem test_wf_wrCmdRsv : (Instr.wrCmdRsv 0x00).wf = false ∧ (Instr.wrCmdRsv 0x01).wf = false ∧
    (Instr.wrCmdRsv 0x02).wf = false ∧ (Instr.wrCmdRsv 0x03).wf = true := by decide

/-- Rule R107: the defined types have rows of their own. -/
theorem test_wf_rspReserved : (Instr.rspReserved 0x00).wf = false ∧
    (Instr.rspReserved 0x01).wf = false ∧ (Instr.rspReserved 0x02).wf = false ∧
    (Instr.rspReserved 0x03).wf = false ∧ (Instr.rspReserved 0x08).wf = false ∧
    (Instr.rspReserved 0x07).wf = true ∧ (Instr.rspReserved 0x09).wf = true := by decide

/-- Rule R110: the canonical pairs have rows of their own, and END is never a second byte. -/
theorem test_wf_escNoncanon : (Instr.escNoncanon 0x4A).wf = false ∧
    (Instr.escNoncanon 0x4D).wf = false ∧ (Instr.escNoncanon 0x9E).wf = false ∧
    (Instr.escNoncanon 0x0A).wf = false ∧ (Instr.escNoncanon 0x5E).wf = true := by decide

/-- Rule R110: the three reserved bytes are no literals. -/
theorem test_wf_literal : (Instr.literal 0x0A).wf = false ∧ (Instr.literal 0x0D).wf = false ∧
    (Instr.literal 0x5E).wf = false ∧ (Instr.literal 0x4A).wf = true := by decide

/-- Rule R6: P_TXBUF is 2 to 32 and P_RXBUF 6 to 64. -/
theorem test_wf_params : Config.Params.wf ⟨1, 64⟩ = false ∧ Config.Params.wf ⟨33, 64⟩ = false ∧
    Config.Params.wf ⟨32, 5⟩ = false ∧ Config.Params.wf ⟨32, 65⟩ = false ∧
    Config.Params.wf ⟨2, 6⟩ = true ∧ Config.Params.wf ⟨32, 64⟩ = true := by decide

/-! ## Decoding: one word of every row, written out from the spec's tables -/

/-- Rule R103. 0x81 is not READ: it is CMD_RSV with OP = 1 and RSV = 0b100000. -/
theorem test_decode_cmd : decode .cmd [0x00] = .ok (.nop, []) ∧ decode .cmd [0x01] = .ok (.read, []) ∧
    decode .cmd [0x02] = .ok (.write, []) ∧ decode .cmd [0x03] = .ok (.cmdRsv03, []) ∧
    decode .cmd [0x81] = .ok (.cmdRsv 1 0x20, []) := ⟨rfl, rfl, rfl, rfl, rfl⟩

/-- Rule R310: W = 0, the address, D = 0. -/
theorem test_decode_bus_reads :
    decode .bus [0x00, 0x00] = .ok (.rdCtrl, []) ∧
    decode .bus [0x01, 0x00] = .ok (.rdCmd, []) ∧
    decode .bus [0x02, 0x00] = .ok (.rdStatus, []) ∧
    decode .bus [0x03, 0x00] = .ok (.rdErrcode, []) ∧
    decode .bus [0x04, 0x00] = .ok (.rdDest, []) ∧
    decode .bus [0x05, 0x00] = .ok (.rdSrc, []) ∧
    decode .bus [0x06, 0x00] = .ok (.rdReg, []) ∧
    decode .bus [0x07, 0x00] = .ok (.rdTxLen, []) ∧
    decode .bus [0x08, 0x00] = .ok (.rdRxBlen, []) ∧
    decode .bus [0x09, 0x00] = .ok (.rdTxCrcHi, []) ∧
    decode .bus [0x0A, 0x00] = .ok (.rdTxCrcLo, []) ∧
    decode .bus [0x0B, 0x00] = .ok (.rdRxResHi, []) ∧
    decode .bus [0x0C, 0x00] = .ok (.rdRxResLo, []) ∧
    decode .bus [0x0D, 0x00] = .ok (.rdToLimitHi, []) ∧
    decode .bus [0x0E, 0x00] = .ok (.rdToLimitLo, []) ∧
    decode .bus [0x0F, 0x00] = .ok (.rdCrcAccHi, []) ∧
    decode .bus [0x10, 0x00] = .ok (.rdCrcAccLo, []) ∧
    decode .bus [0x11, 0x00] = .ok (.rdCrcIn, []) ∧
    decode .bus [0x12, 0x00] = .ok (.rdRxInfo, []) ∧
    decode .bus [0x13, 0x00] = .ok (.rdRsv13, []) ∧
    decode .bus [0x14, 0x00] = .ok (.rdRsv14, []) ∧
    decode .bus [0x15, 0x00] = .ok (.rdRsv15, []) ∧
    decode .bus [0x16, 0x00] = .ok (.rdRsv16, []) ∧
    decode .bus [0x17, 0x00] = .ok (.rdRsv17, []) ∧
    decode .bus [0x18, 0x00] = .ok (.rdRsv18, []) ∧
    decode .bus [0x19, 0x00] = .ok (.rdRsv19, []) ∧
    decode .bus [0x1A, 0x00] = .ok (.rdRsv1A, []) ∧
    decode .bus [0x1B, 0x00] = .ok (.rdRsv1B, []) ∧
    decode .bus [0x1C, 0x00] = .ok (.rdRsv1C, []) ∧
    decode .bus [0x1D, 0x00] = .ok (.rdRsv1D, []) ∧
    decode .bus [0x1E, 0x00] = .ok (.rdRsv1E, []) ∧
    decode .bus [0x1F, 0x00] = .ok (.rdRsv1F, []) :=
  ⟨rfl, rfl, rfl, rfl, rfl, rfl, rfl, rfl, rfl, rfl, rfl, rfl, rfl, rfl, rfl, rfl, rfl, rfl, rfl, rfl, rfl, rfl, rfl, rfl, rfl, rfl, rfl, rfl, rfl, rfl, rfl, rfl⟩

/-- Rule R80: TXBUF[i] is 0x20 + i and RXBUF[i] is 0x40 + i. -/
theorem test_decode_bus_read_buffers :
    decode .bus [0x20, 0x00] = .ok (.rdTxbuf 0, []) ∧
    decode .bus [0x3F, 0x00] = .ok (.rdTxbuf 31, []) ∧
    decode .bus [0x40, 0x00] = .ok (.rdRxbuf 0, []) ∧
    decode .bus [0x7F, 0x00] = .ok (.rdRxbuf 63, []) :=
  ⟨rfl, rfl, rfl, rfl⟩

/-- Rule R311: W = 1, the address, D = 0x5A. -/
theorem test_decode_bus_writes :
    decode .bus [0x80, 0x5A] = .ok (.wrCtrl 0x5A, []) ∧
    decode .bus [0x82, 0x5A] = .ok (.wrStatus 0x5A, []) ∧
    decode .bus [0x83, 0x5A] = .ok (.wrErrcode 0x5A, []) ∧
    decode .bus [0x84, 0x5A] = .ok (.wrDest 0x5A, []) ∧
    decode .bus [0x85, 0x5A] = .ok (.wrSrc 0x5A, []) ∧
    decode .bus [0x86, 0x5A] = .ok (.wrReg 0x5A, []) ∧
    decode .bus [0x87, 0x5A] = .ok (.wrTxLen 0x5A, []) ∧
    decode .bus [0x88, 0x5A] = .ok (.wrRxBlen 0x5A, []) ∧
    decode .bus [0x89, 0x5A] = .ok (.wrTxCrcHi 0x5A, []) ∧
    decode .bus [0x8A, 0x5A] = .ok (.wrTxCrcLo 0x5A, []) ∧
    decode .bus [0x8B, 0x5A] = .ok (.wrRxResHi 0x5A, []) ∧
    decode .bus [0x8C, 0x5A] = .ok (.wrRxResLo 0x5A, []) ∧
    decode .bus [0x8D, 0x5A] = .ok (.wrToLimitHi 0x5A, []) ∧
    decode .bus [0x8E, 0x5A] = .ok (.wrToLimitLo 0x5A, []) ∧
    decode .bus [0x8F, 0x5A] = .ok (.wrCrcAccHi 0x5A, []) ∧
    decode .bus [0x90, 0x5A] = .ok (.wrCrcAccLo 0x5A, []) ∧
    decode .bus [0x91, 0x5A] = .ok (.wrCrcIn 0x5A, []) ∧
    decode .bus [0x92, 0x5A] = .ok (.wrRxInfo 0x5A, []) ∧
    decode .bus [0x93, 0x5A] = .ok (.wrRsv13 0x5A, []) ∧
    decode .bus [0x94, 0x5A] = .ok (.wrRsv14 0x5A, []) ∧
    decode .bus [0x95, 0x5A] = .ok (.wrRsv15 0x5A, []) ∧
    decode .bus [0x96, 0x5A] = .ok (.wrRsv16 0x5A, []) ∧
    decode .bus [0x97, 0x5A] = .ok (.wrRsv17 0x5A, []) ∧
    decode .bus [0x98, 0x5A] = .ok (.wrRsv18 0x5A, []) ∧
    decode .bus [0x99, 0x5A] = .ok (.wrRsv19 0x5A, []) ∧
    decode .bus [0x9A, 0x5A] = .ok (.wrRsv1A 0x5A, []) ∧
    decode .bus [0x9B, 0x5A] = .ok (.wrRsv1B 0x5A, []) ∧
    decode .bus [0x9C, 0x5A] = .ok (.wrRsv1C 0x5A, []) ∧
    decode .bus [0x9D, 0x5A] = .ok (.wrRsv1D 0x5A, []) ∧
    decode .bus [0x9E, 0x5A] = .ok (.wrRsv1E 0x5A, []) ∧
    decode .bus [0x9F, 0x5A] = .ok (.wrRsv1F 0x5A, []) :=
  ⟨rfl, rfl, rfl, rfl, rfl, rfl, rfl, rfl, rfl, rfl, rfl, rfl, rfl, rfl, rfl, rfl, rfl, rfl, rfl, rfl, rfl, rfl, rfl, rfl, rfl, rfl, rfl, rfl, rfl, rfl, rfl⟩

/-- Rules R200 to R204 as BUS words. -/
theorem test_decode_bus_commands :
    decode .bus [0x81, 0x00] = .ok (.wrCmdNop, []) ∧
    decode .bus [0x81, 0x01] = .ok (.wrCmdRead, []) ∧
    decode .bus [0x81, 0x02] = .ok (.wrCmdWrite, []) ∧
    decode .bus [0x81, 0x03] = .ok (.wrCmdRsv 0x03, []) ∧
    decode .bus [0x81, 0x81] = .ok (.wrCmdRsv 0x81, []) :=
  ⟨rfl, rfl, rfl, rfl, rfl⟩

/-- Rules R80 and R311. -/
theorem test_decode_bus_write_buffers :
    decode .bus [0xA0, 0x02] = .ok (.wrTxbuf 0 0x02, []) ∧
    decode .bus [0xBF, 0xFF] = .ok (.wrTxbuf 31 0xFF, []) ∧
    decode .bus [0xC5, 0x12] = .ok (.wrRxbuf 5 0x12, []) ∧
    decode .bus [0xFF, 0x00] = .ok (.wrRxbuf 63 0x00, []) :=
  ⟨rfl, rfl, rfl, rfl⟩

/-- Rule R105. -/
theorem test_decode_req : decode .req [0x04] = .ok (.reqRead, []) ∧
    decode .req [0x05] = .ok (.reqWrite, []) := ⟨rfl, rfl⟩

/-- Rule R107. -/
theorem test_decode_rsp : decode .rsp [0x00] = .ok (.rspNotUnderstood, []) ∧
    decode .rsp [0x01] = .ok (.rspCrcError, []) ∧ decode .rsp [0x02] = .ok (.rspBusy, []) ∧
    decode .rsp [0x03] = .ok (.rspWriteAck, []) ∧ decode .rsp [0x08] = .ok (.rspReadAck, []) ∧
    decode .rsp [0x07] = .ok (.rspReserved 0x07, []) := ⟨rfl, rfl, rfl, rfl, rfl, rfl⟩

/-- Rules R110 and R111: the second byte of 0x5E 0x5E is consumed by the pair. -/
theorem test_decode_sym : decode .sym [0x0D, 0x41] = .ok (.symStart, [0x41]) ∧
    decode .sym [0x0A] = .ok (.symEnd, []) ∧ decode .sym [0x5E, 0x4A] = .ok (.esc0A, []) ∧
    decode .sym [0x5E, 0x4D] = .ok (.esc0D, []) ∧ decode .sym [0x5E, 0x9E] = .ok (.esc5E, []) ∧
    decode .sym [0x5E, 0x5E, 0x5E] = .ok (.escNoncanon 0x5E, [0x5E]) ∧
    decode .sym [0x4A] = .ok (.literal 0x4A, []) ∧
    decode .sym [0x5E, 0x0A] = .ok (.char 0x5E, [0x0A]) :=
  ⟨rfl, rfl, rfl, rfl, rfl, rfl, rfl, rfl⟩

/-- Rule R291 and section 2.7: 0x61 is the levels 0, 1 0 0 0 0 1 1 0, 1, so 0b0100001101. -/
theorem test_decode_char : decode .char [0x01, 0x0D] = .ok (.char 0x61, []) := rfl

/-- What the decoder refuses, by name: no bytes, a read with data (R101), a code that is neither
request (R105), padding, a start bit of 1 and a stop bit of 0 (R291). -/
theorem test_decode_refuses : decode .cmd [] = .error .truncated ∧
    decode .bus [0x02] = .error .truncated ∧ decode .bus [0x02, 0x01] = .error .readWithData ∧
    decode .req [0x06] = .error .requestCode ∧ decode .char [0x05, 0x0D] = .error .charPadding ∧
    decode .char [0x03, 0x0D] = .error .noStartBit ∧ decode .char [0x01, 0x0C] = .error .stopBitZero :=
  ⟨rfl, rfl, rfl, rfl, rfl, rfl, rfl⟩

/-! ## Small states -/

/-- The state after reset in another phase. -/
def inPhase (p : Phase) : State := { State.reset with phase := p }

/-- A state with one event lined up. -/
def facing (s : State) (e : Event) : State := { s with agenda := [e] }

/-- The next state of an outcome, if it is one. -/
def after : Result → Option State
  | .next t => some t
  | .fault _ => none
  | .refused _ => none

/-- The machine after READ of register 0x61 from reset, its frame not yet sent (section 2.4). -/
def framedRead : State :=
  { State.reset with
    reg := 0x61, txCrc := 0xEE01, phase := .framing,
    txFrame := [0x0D, 0x0F, 0xA1, 0x04, 0x61, 0xEE, 0x01, 0x0A] }

/-- The same with the frame sent: waiting for START. -/
def waitingRead : State := { framedRead with phase := .awaitStart, txIdx := 8 }

/-- The same after the reply of section 1.5, before VALIDATE. -/
def repliedRead : State :=
  { waitingRead with
    phase := .validating, rxCnt := 7,
    mem := [(0x40, 0xA1), (0x41, 0x0F), (0x42, 0x08), (0x43, 0x61), (0x44, 0x8F), (0x45, 0xA5),
      (0x46, 0x06)] }

/-! ## The pure functions -/

/-- Section 2.1. -/
theorem test_escape : escape [0x5E, 0x0A, 0x0D, 0x00, 0x5E] =
    [0x5E, 0x9E, 0x5E, 0x4A, 0x5E, 0x4D, 0x00, 0x5E, 0x9E] ∧ escape [0x4A] = [0x4A] := by decide

/-- Section 2.2. -/
theorem test_unescape : unescape [0x5E, 0x5E, 0x5E] = ([0x1E], true) ∧
    unescape [0x5E, 0x00] = ([0xC0], false) ∧ unescape [0x5E, 0x0D] = ([0xCD], false) ∧
    unescape [0x41, 0x5E] = ([0x41], true) := by decide

/-- Section 2.3. -/
theorem test_crc : crcUpd 0x0000 0x80 = 0x9188 ∧ crcUpd 0xFFFF 0x00 = 0xE1F0 ∧
    crc16 [0x0F, 0xA1, 0x04, 0x61] = 0xEE01 ∧
    crc16 [0xA1, 0x0F, 0x08, 0x61, 0x8F, 0xA5, 0x07] = 0x1021 := by decide +kernel

/-! ## One step of an instruction or an agent -/

/-- Section 2.8: the reads right after reset. -/
theorem test_reset_reads :
    ((List.range 0x20).map fun a => State.reset.hostByte (BitVec.ofNat 7 a)) =
      [0x00, 0x00, 0x00, 0x00, 0x0F, 0xA1, 0x00, 0x00, 0x00, 0x00, 0x00, 0x00, 0x00, 0xFF, 0xFF,
       0x00, 0x00, 0x00, 0x00, 0x00, 0x00, 0x00, 0x00, 0x00, 0x00, 0x00, 0x00, 0x00, 0x00, 0x00,
       0x00, 0x00] := by decide +kernel

/-- Section 2.4: STATUS reads 0x21 while framing, and 0x29 after a second READ. -/
theorem test_status_reads : framedRead.statusByte = 0x21 ∧
    (after (exec .rdStatus framedRead)).map State.busReplies = some [0x21] ∧
    (after (exec .wrCmdRead framedRead)).map State.statusByte = some 0x29 := by decide

/-- Section 2.8: `wr 0x00, 0xFF`. -/
theorem test_wrCtrl : (after (exec (.wrCtrl 0xFF) State.reset)).map State.ctrl = some 0x03 := by decide

/-- Section 2.8: `wr 0x02, 0xE1` with STATUS = 0x41 changes nothing. -/
theorem test_wrStatus : after (exec (.wrStatus 0xE1) waitingRead) = some waitingRead := by decide

/-- Section 2.8: `wr 0x07, 0x40` stores 0x20, and with P_TXBUF = 4 `wr 0x07, 0x05` stores 0x04. -/
theorem test_wrTxLen : (after (exec (.wrTxLen 0x40) State.reset)).map State.txLen = some 0x20 ∧
    (after (exec (.wrTxLen 0x05) (State.resetWith ⟨4, 64⟩))).map State.txLen = some 0x04 := by decide

/-- Section 2.8: `rd 0x3F` with P_TXBUF = 4. -/
theorem test_rdTxbuf_reserved :
    (after (exec (.rdTxbuf 31) (State.resetWith ⟨4, 64⟩))).map State.busReplies = some [0x00] := by
  decide

/-- Section 2.3: `wr 0x0F, 0x12` and the byte of a pair. -/
theorem test_crc_unit :
    (after (exec (.wrCrcAccHi 0xAB) { State.reset with crcAcc := 0x1234 })).map State.crcAcc =
      some 0xAB34 ∧
    (after (exec (.wrCrcAccLo 0x00) { State.reset with crcAcc := 0xAB34 })).map State.crcAcc =
      some 0xAB00 ∧
    (after (exec (.wrCrcIn 0x61) { State.reset with crcAcc := 0x42FA })).map State.crcAcc =
      some 0xEE01 := by decide

/-- Rule R316: TO_LIMIT's two bytes are stored one by one. -/
theorem test_toLimit :
    (after (exec (.wrToLimitHi 0x12) State.reset)).map State.toLimit = some 0x12FF ∧
    (after (exec (.wrToLimitLo 0x34) State.reset)).map State.toLimit = some 0xFF34 := by decide

/-- Section 2.4: READ of register 0x61 from reset. -/
theorem test_read : after (exec .read { State.reset with reg := 0x61 }) = some framedRead := by
  decide +kernel

/-- Section 2.4: WRITE of 0x00 to register 0x30, with the CRC byte 0x5E escaped. -/
theorem test_write : (after (exec .write { State.reset with reg := 0x30, txLen := 1 })).map
    (fun t => (t.txFrame, t.txCrc)) =
      some ([0x0D, 0x0F, 0xA1, 0x05, 0x30, 0x00, 0x17, 0x5E, 0x9E, 0x0A], 0x175E) := by
  decide +kernel

/-- Section 2.4: `wr 0x05, 0xA0 ; wr 0x01, 0x01`. -/
theorem test_read_range : (after (exec .wrCmdRead { State.reset with src := 0xA0 })).map
    (fun t => (t.statusByte, t.errcode, t.txFrame)) = some (0x06, 0x01, []) := by decide

/-- Section 2.4: `wr 0x01, 0x81` is not READ. -/
theorem test_reserved_command :
    (after (exec (.wrCmdRsv 0x81) State.reset)).map State.statusByte = some 0x08 := by decide

/-- Section 2.5: the reply of section 1.5 validates; with its last byte 0x07 it does not (0x1021). -/
theorem test_validate : (after (exec .rspReadAck repliedRead)).map
    (fun t => (t.statusByte, t.errcode, t.rxBlen, t.rxRes, t.rxInfo)) =
      some (0x02, 0x00, 0x07, 0x0000, 0x0F) ∧
    (after (exec .rspReadAck { repliedRead with rxCrc := 0x1021 })).map
    (fun t => (t.statusByte, t.errcode, t.rxBlen, t.rxRes, t.rxInfo)) =
      some (0x06, 0x07, 0x07, 0x1021, 0x00) := by decide

/-- Section 2.5: the codes of the types after a READ. -/
theorem test_classify :
    (after (exec .rspNotUnderstood repliedRead)).map State.errcode = some 0x08 ∧
    (after (exec .rspCrcError repliedRead)).map State.errcode = some 0x09 ∧
    (after (exec .rspBusy repliedRead)).map State.errcode = some 0x0A ∧
    (after (exec .rspWriteAck repliedRead)).map State.errcode = some 0x0B ∧
    (after (exec (.rspReserved 0x07) repliedRead)).map State.errcode = some 0x0B := by decide

/-- Section 2.5: 0x5E 0x41 stores 0x01, and END right after 0x5E ends the body. -/
theorem test_body_symbols :
    (after (exec (.escNoncanon 0x41) (inPhase .recvBody))).map State.mem = some [(0x40, 0x01)] ∧
    (after (exec .symEnd { inPhase .recvBody with rxEsc := true })).map
      (fun t => (t.phase, t.rxEsc, t.rxCnt)) = some (.validating, true, 0) := by decide

/-- Section 2.7: TX_EMIT hands over 0x0D, and UTX_DONE puts it on the wire. -/
theorem test_emit : (after (step (facing framedRead (.move .seq)))).map
    (fun t => (t.utxBusy, t.utxByte, t.txIdx)) = some (true, 0x0D, 1) ∧
    (after (step (facing { framedRead with utxBusy := true, utxByte := 0x0D } (.move .utx)))).map
    (fun t => (t.wireOut, t.utxBusy)) = some ([0x0D], false) := by decide

/-- Section 2.7: the levels of 0x61 on uart_tx. -/
theorem test_uartTx : (List.range 10).map { framedRead with utxBusy := true, utxByte := 0x61 }.uartTx =
    [false, true, false, false, false, false, true, true, false, true] := by decide

/-- Section 2.6: with TO_LIMIT = 3 the third tick expires. -/
theorem test_tick :
    (after (step (facing { waitingRead with toLimit := 3, toCnt := 1 } (.move .tick)))).map
      State.statusByte = some 0x41 ∧
    (after (step (facing { waitingRead with toLimit := 3, toCnt := 2 } (.move .tick)))).map
      (fun t => (t.statusByte, t.errcode)) = some (0x06, 0x02) := by decide

/-- Section 2.7: `lineerr` in AWAIT_START. -/
theorem test_framing_error :
    (after (step (facing waitingRead (.move (.line .framingError))))).map State.statusByte =
      some 0x51 := by decide

/-- The word of a row, stored where the step fetches, is the instruction the step runs. -/
theorem test_withFetchWord :
    step (State.reset.withFetchWord 16 0x8661) = exec (.wrReg 0x61) State.reset ∧
    step (State.reset.withFetchWord 16 0x5E4A) = exec .esc0A State.reset ∧
    step (State.reset.withFetchWord 16 0x010D) = exec (.char 0x61) State.reset ∧
    step (State.reset.withFetchWord 8 0x01) = exec .read State.reset := ⟨rfl, rfl, rfl, rfl⟩

/-- A response type is fetched from RXBUF[2] while validating (rule R254). -/
theorem test_withFetchWord_response :
    (after (step (State.reset.withFetchWord 8 0x08))).map (fun t => (t.phase, t.errcode)) =
      some (.idle, 0x06) := by decide

/-! ## Witnesses: states that meet the hypotheses of the statements -/

theorem witness_WritesToReadOnlyOrReservedAddressesChangeNothing :
    ∃ (s : State) (i : BitVec 5), s.cfg.txbuf ≤ i.toNat := ⟨State.resetWith ⟨31, 64⟩, 31, by decide⟩

theorem witness_OperandWritesStoreWhileIdle :
    ∃ (s : State) (i j : BitVec 5), s.phase = .idle ∧ i.toNat = 0 ∧ i.toNat < s.cfg.txbuf ∧
      j.toNat = 31 ∧ j.toNat < s.cfg.txbuf := ⟨State.reset, 0, 31, by decide⟩

theorem witness_TxbufWriteChangesOneByte :
    ∃ (s : State) (i : BitVec 5), s.mem.wf = true ∧ s.phase = .idle ∧ i.toNat < s.cfg.txbuf :=
  ⟨{ State.reset with mem := [(0x21, 0x05), (0x40, 0xA1)] }, 31, by decide⟩

theorem witness_OperandWritesAreRejectedWhileBusy :
    (∃ (s : State) (i : BitVec 5), s.phase ≠ .idle ∧ i.toNat < s.cfg.txbuf) ∧
    (∃ (s t : State) (d : Byte), exec (.wrCtrl d) s = .next t ∧ t.rej = true) :=
  ⟨⟨framedRead, 31, by decide⟩, ⟨{ framedRead with rej := true }, _, 0x01, rfl, rfl⟩⟩

theorem witness_NopAndReservedCommandsInAnyPhase :
    (Instr.cmdRsv 0 1).wf = true ∧ encode (.cmdRsv 0 1) = [0x04] ∧ (Instr.cmdRsv 3 63).wf = true ∧
    encode (.cmdRsv 3 63) = [0xFF] ∧ (Instr.wrCmdRsv 0x03).wf = true ∧
    (Instr.wrCmdRsv 0xFF).wf = true := by decide

theorem witness_CommandsWhileBusyAreRejected :
    framedRead.phase ≠ .idle ∧ waitingRead.phase ≠ .idle ∧ (inPhase .recvBody).phase ≠ .idle ∧
    repliedRead.phase ≠ .idle := by decide

theorem witness_SourceOutOfRangeCompletesAtOnce :
    ∃ s : State, s.phase = .idle ∧ s.src = 0xA0 ∧ s.src.toNat < 0xA1 :=
  ⟨{ State.reset with src := 0xA0 }, by decide⟩

theorem witness_AcceptedReadFramesItsRequest :
    ∃ s : State, s.phase = .idle ∧ s.src = 0xA1 ∧ 0xA1 ≤ s.src.toNat := ⟨State.reset, by decide⟩

theorem witness_AcceptedWriteFramesItsRequest :
    ∃ s : State, s.phase = .idle ∧ 0xA1 ≤ s.src.toNat ∧ s.txLen.toNat = 32 ∧
      s.txLen.toNat ≤ s.cfg.txbuf := ⟨{ State.reset with src := 0xFF, txLen := 0x20 }, by decide⟩

theorem witness_RequestRowsGenerateTheirRequest :
    (∃ s : State, s.phase = .idle ∧ 0xA1 ≤ s.src.toNat ∧ s.txLen.toNat ≤ s.cfg.txbuf) ∧
    (∃ s : State, s.phase ≠ .idle) ∧ (∃ s : State, s.phase = .idle ∧ s.src.toNat < 0xA1) :=
  ⟨⟨State.reset, by decide⟩, ⟨framedRead, by decide⟩, ⟨{ State.reset with src := 0xA0 }, by decide⟩⟩

theorem witness_HuntSymbolsOpenABodyOrAreDiscarded :
    waitingRead.phase = .awaitStart ∧ (0x41 : Byte) ≠ 0x0D ∧ (Instr.literal 0x00).wf = true := by
  decide

theorem witness_EndEndsTheBodyEvenAfterEsc :
    ∃ s : State, s.phase = .recvBody ∧ s.rxEsc = true :=
  ⟨{ inPhase .recvBody with rxEsc := true }, by decide⟩

theorem witness_BodySymbolsStoreTheirByte :
    (∃ s : State, s.phase = .recvBody ∧ s.rxEsc = false) ∧
    (∃ s : State, s.phase = .recvBody ∧ s.rxEsc = true) ∧ (Instr.escNoncanon 0x5E).wf = true ∧
    (Instr.escNoncanon 0x0D).wf = true ∧ (Instr.literal 0x4A).wf = true :=
  ⟨⟨inPhase .recvBody, by decide⟩, ⟨{ inPhase .recvBody with rxEsc := true }, by decide⟩, by decide⟩

theorem witness_BytesOutsideTheListeningPhasesAreDiscarded :
    Instr.symStart.format = .sym ∧ (Instr.char 0x0D).format = .char ∧ State.reset.phase = .idle ∧
    framedRead.phase = .framing ∧ repliedRead.phase = .validating := by decide

/-- At the last byte of RXBUF, at the first that does not fit, and saturated, with an ESC pending and
without. -/
theorem witness_StoredByteChangesOneByteOfMemory :
    (∀ n ∈ [63, 64, 65], ∀ e : Bool, ∃ s : State, s.rxCnt = n ∧ s.rxEsc = e ∧ s.mem.wf = true ∧
      s.phase = .recvBody) ∧
    (Instr.literal 0xFF).wf = true ∧ (Instr.escNoncanon 0x5E).wf = true ∧
    (Instr.escNoncanon 0x41).wf = true :=
  ⟨fun n _ e => ⟨{ inPhase .recvBody with rxCnt := n, rxEsc := e, mem := [(0x40, 0xA1)] },
    rfl, rfl, rfl, rfl⟩, by decide⟩

theorem witness_ResponseRowsValidate :
    repliedRead.phase = .validating ∧ (Instr.rspReserved 0x07).wf = true ∧
    Instr.rspReadAck.format = .rsp ∧ waitingRead.phase ≠ .validating := by decide

theorem witness_ValidateStepReportsTheFirstCodeThatApplies :
    ∃ s : State, s.agenda = [.move .seq] ∧ s.phase = .validating :=
  ⟨facing repliedRead (.move .seq), rfl, rfl⟩

/-- The reply received, and SEQ to move. -/
def validatingRead : State := facing repliedRead (.move .seq)

theorem validatingRead_legal : validatingRead.Legal :=
  ⟨by decide, by decide, by decide, by decide, by decide, by decide, by decide, by decide, by decide,
    by decide⟩

theorem validatingRead_received : validatingRead.Received :=
  ⟨by decide, fun _ _ => by decide +kernel⟩

theorem witness_SuccessMeansIntactBodyOfTheExpectedType :
    ∃ s t : State, s.Legal ∧ s.Received ∧ s.agenda = [.move .seq] ∧ s.phase = .validating ∧
      step s = .next t ∧ t.errcode = 0x00 :=
  ⟨validatingRead, _, validatingRead_legal, validatingRead_received, rfl, rfl, rfl, by decide⟩

theorem witness_StepRunsTheDecodedInstruction :
    (decode .sym [0x0D, 0x41] = .ok (.symStart, [0x41]) ∧
      (facing State.reset (.coded .sym [0x0D, 0x41])).agenda = [.coded .sym [0x0D, 0x41]]) ∧
    (facing State.reset (.move (.host (.read 0x02)))).agenda = [.move (.host (.read 0x02))] ∧
    (facing waitingRead (.move (.line (.byte 0x0D)))).agenda = [.move (.line (.byte 0x0D))] ∧
    (facing repliedRead (.move .seq)).phase = .validating := ⟨⟨rfl, rfl⟩, rfl, rfl, rfl⟩

theorem witness_EmptyAgendaTakesAFreeMove : State.reset.agenda = [] := rfl

/-- In both waits, at the tick before the limit and at the limit, and outside the waits. -/
theorem witness_TickCountsAndTimesOut :
    ∀ s ∈ [{ waitingRead with toLimit := 2 }, { waitingRead with toLimit := 2, toCnt := 1 },
      inPhase .recvBody, State.reset],
      (facing s (.move .tick)).agenda = [.move .tick] := fun _ _ => rfl

/-- The first byte and the last. -/
theorem witness_EmitHandsOverTheNextByte :
    ∀ k ∈ [0, 7], ∃ (s : State) (b : Byte), s.txIdx = k ∧ s.agenda = [.move .seq] ∧
      s.phase = .framing ∧ s.utxBusy = false ∧ s.txFrame[s.txIdx]? = some b := by
  intro k hk
  have h : k < framedRead.txFrame.length := by
    rcases List.mem_pair.1 hk with rfl | rfl <;> decide
  exact ⟨{ framedRead with txIdx := k, agenda := [.move .seq] }, framedRead.txFrame[k], rfl, rfl, rfl,
    rfl, List.getElem?_eq_getElem h⟩

theorem witness_TransmitterAndFramingErrorSteps :
    (∃ s : State, s.agenda = [.move .utx] ∧ s.utxBusy = true) ∧
    (∃ s : State, s.agenda = [.move (.line .framingError)]) :=
  ⟨⟨facing { framedRead with utxBusy := true } (.move .utx), rfl, rfl⟩,
    ⟨facing framedRead (.move (.line .framingError)), rfl⟩⟩

theorem witness_TransmitPinCarriesTheCharacter :
    (∃ s : State, s.utxBusy = true ∧ s.utxByte = 0x61) ∧ State.reset.utxBusy = false :=
  ⟨⟨{ framedRead with utxBusy := true, utxByte := 0x61 }, rfl, rfl⟩, rfl⟩

theorem witness_DisabledAgentsChangeNothing :
    (∃ s : State, s.agenda = [.move .utx] ∧ s.utxBusy = false) ∧
    (∃ s : State, s.agenda = [.move .seq] ∧ s.phase = .idle) ∧
    (∃ s : State, s.agenda = [.move .seq] ∧ s.phase = .framing ∧ s.utxBusy = true) :=
  ⟨⟨facing framedRead (.move .utx), rfl, rfl⟩, ⟨facing State.reset (.move .seq), rfl, rfl⟩,
    ⟨facing { framedRead with utxBusy := true } (.move .seq), rfl, rfl, rfl⟩⟩

/-- Section 2.9: a reset while 0x0F is being sent. -/
theorem witness_ResetStepSetsTheSpecValues :
    ∃ s : State, s.agenda = [.move .rst] ∧ s.phase = .framing ∧ s.utxBusy = true ∧ s.wireOut = [0x0D] :=
  ⟨facing { framedRead with utxBusy := true, utxByte := 0x0F, wireOut := [0x0D], txIdx := 2 }
    (.move .rst), rfl, rfl, rfl, rfl⟩

theorem witness_CycleTakesItsEventsInOrder :
    ∃ s : State, s.agenda = [.cycle ⟨true, some (.byte 0x0D), true, true, some (.read 0x02)⟩] :=
  ⟨facing State.reset (.cycle ⟨true, some (.byte 0x0D), true, true, some (.read 0x02)⟩), rfl⟩

/-- The smallest limit the statement admits, at the count one below it. -/
theorem witness_StartBeatsTheTickOfItsCycle :
    ∃ s : State, s.phase = .awaitStart ∧ s.toLimit = 2 ∧ 2 ≤ s.toLimit.toNat ∧ s.toCnt = 1 ∧
      s.agenda = [.cycle ⟨false, some (.byte 0x0D), true, false, none⟩] :=
  ⟨facing { waitingRead with toLimit := 2, toCnt := 1 }
    (.cycle ⟨false, some (.byte 0x0D), true, false, none⟩), rfl, rfl, by decide, rfl, rfl⟩

theorem witness_DecodeOfEncode : ∀ i ∈ [Instr.cmdRsv 0 1, .wrTxbuf 31 0xFF, .wrCmdRsv 0x03,
    .rspReserved 0x09, .escNoncanon 0x5E, .literal 0x5D, .char 0x61], i.wf = true := by decide

theorem witness_EncodeOfDecode :
    decode .sym [0x41, 0x0A] = .ok (.literal 0x41, [0x0A]) ∧
    decode .sym [0x5E, 0x0A] = .ok (.char 0x5E, [0x0A]) ∧ decode .sym [0x5E] = .ok (.char 0x5E, []) :=
  ⟨rfl, rfl, rfl⟩

theorem witness_FrameLengthBounds :
    (0xA1 : Nat) ≤ (0xA1 : Byte).toNat ∧ (0xA1 : Nat) ≤ (0xFF : Byte).toNat := by decide

/-- A body with a pair, and one that ends in a dangling ESC. -/
theorem witness_ReceptionAgreesWithUnescape :
    ∃ s : State, s.mem.wf = true ∧ s.phase = .awaitStart ∧
      (0x0A : Byte) ∉ ([0xA1, 0x5E, 0x41] : List Byte) ∧ (0x0A : Byte) ∉ ([0x5E] : List Byte) :=
  ⟨waitingRead, by decide⟩

/-- READ presented to the machine after reset, and a byte of a frame about to be emitted. -/
def readLinedUp : State := facing State.reset (.coded .cmd [0x01])

def secondByteNext : State := facing { framedRead with txIdx := 1, wireOut := [0x0D] } (.move .seq)

theorem readLinedUp_fetch : ∀ u, fetch readLinedUp ≠ .agent .reset u := fun u h => by
  have h' : Fetched.instr .read State.reset = .agent .reset u := h
  cases h'

theorem secondByteNext_fetch : ∀ u, fetch secondByteNext ≠ .agent .reset u := fun u h => by
  have h' : Fetched.agent .txEmit (secondByteNext.setAgenda []) = .agent .reset u := h
  cases h'

theorem witness_FrameReachesTheWireInOrder :
    (∃ s : State, s.phase = .framing ∧ s.txIdx = 0 ∧ s.txFrame ≠ [] ∧ s.utxBusy = false) ∧
    (∃ s t : State, step s = .next t ∧ (∀ u, fetch s ≠ .agent .reset u) ∧ s.phase = .idle ∧
      t.phase = .framing) ∧
    (∃ s t : State, step s = .next t ∧ (∀ u, fetch s ≠ .agent .reset u) ∧ s.phase = .framing ∧
      s.handedOver = [] ++ s.txFrame.take s.txIdx) :=
  ⟨⟨framedRead, by decide⟩,
    ⟨readLinedUp, _, rfl, readLinedUp_fetch, rfl, rfl⟩,
    ⟨secondByteNext, _, rfl, secondByteNext_fetch, rfl, by decide⟩⟩

/-- With limits 0 and 3: the last tick before the end, and the tick that ends the wait. -/
theorem witness_SilentLineTimesOutAtTheLimit :
    ∃ s u : State, s.phase = .awaitStart ∧ s.toCnt = 0x0000 ∧ 2 < max s.toLimit.toNat 1 ∧
      3 = max s.toLimit.toNat 1 ∧ u.phase = .awaitStart ∧ u.toCnt = 0x0000 ∧
      0 < max u.toLimit.toNat 1 ∧ 1 = max u.toLimit.toNat 1 :=
  ⟨{ waitingRead with toLimit := 3 }, { waitingRead with toLimit := 0 }, by decide⟩

/-- An empty payload, and one that fills RXBUF. -/
theorem witness_GoodReplySucceeds :
    ∃ s : State, s.cfg.wf = true ∧ s.mem.wf = true ∧ s.phase = .awaitStart ∧
      6 + ([] : List Byte).length ≤ s.cfg.rxbuf ∧
      6 + (List.replicate 58 (0x5E : Byte)).length ≤ s.cfg.rxbuf :=
  ⟨waitingRead, by decide⟩

theorem witness_StepKeepsLegal : ∃ s t : State, s.Legal ∧ step s = .next t :=
  ⟨validatingRead, _, validatingRead_legal, rfl⟩

theorem witness_StepKeepsQuiet : ∃ s t : State, s.phase ≠ .idle ∧ s.Quiet ∧ step s = .next t :=
  ⟨facing repliedRead (.move .seq), _, by decide, fun _ => by decide, rfl⟩

/-- A state in the middle of a frame meets the invariant. -/
theorem framedRead_frozen : (facing framedRead (.move .seq)).Frozen :=
  ⟨by decide, fun _ => by decide +kernel, fun _ => by decide +kernel, by decide, by decide⟩

theorem witness_StepKeepsFrozen : ∃ s t : State, s.phase = .framing ∧ s.Frozen ∧ step s = .next t :=
  ⟨facing framedRead (.move .seq), _, rfl, framedRead_frozen, rfl⟩

theorem witness_StepKeepsTimed :
    ∃ s t : State, s.phase = .awaitStart ∧ s.Timed ∧ step s = .next t :=
  ⟨facing { waitingRead with toLimit := 3, toCnt := 2 } (.move .tick), _, rfl, fun _ => by decide, rfl⟩

theorem witness_StepKeepsReceived :
    ∃ s t : State, s.phase = .validating ∧ s.Received ∧ step s = .next t :=
  ⟨validatingRead, _, rfl, validatingRead_received, rfl⟩

/-- A move lined up while framing, nothing lined up, and encoded bytes that decode. -/
theorem witness_NothingFaults :
    (∃ s : State, s.phase = .framing ∧ s.Frozen ∧ s.agenda = [.move .seq]) ∧
    (∃ s : State, s.Frozen ∧ s.agenda = []) ∧
    (∃ s : State, s.agenda = [.coded .cmd [0x01]] ∧ ∃ p, decode .cmd [0x01] = .ok p) :=
  ⟨⟨facing framedRead (.move .seq), rfl, framedRead_frozen, rfl⟩,
    ⟨State.reset, ⟨by decide, by decide, by decide, by decide, by decide⟩, rfl⟩,
    ⟨readLinedUp, rfl, _, rfl⟩⟩

theorem witness_FramesStartOnlyByCommands :
    (∃ s t : State, step s = .next t ∧ s.phase = .framing ∧ t.phase = .framing) ∧
    (∃ s t : State, step s = .next t ∧ s.phase = .idle ∧ t.phase = .framing) :=
  ⟨⟨facing framedRead (.move .seq), _, rfl, by decide, by decide⟩,
    ⟨facing State.reset (.coded .cmd [0x01]), _, rfl, by decide, by decide⟩⟩

/-- A step for each arrow of the cycle. -/
theorem witness_PhasesFollowTheCycle :
    (after (step (facing State.reset (.coded .cmd [0x01])))).map State.phase = some .framing ∧
    (after (step (facing { framedRead with txIdx := 7 } (.move .seq)))).map State.phase =
      some .awaitStart ∧
    (after (step (facing waitingRead (.coded .sym [0x0D])))).map State.phase = some .recvBody ∧
    (after (step (facing (inPhase .recvBody) (.coded .sym [0x0A])))).map State.phase =
      some .validating ∧
    (after (step (facing repliedRead (.move .seq)))).map State.phase = some .idle := by decide

/-- A step for each flag: DONE and ERR by VALIDATE, by a tick and by a command out of range, LINE_ERR,
and REJ by a command while BUSY, by a reserved command and by an operand write while BUSY. -/
theorem witness_FlagsAreSetOnlyByTheirCauses :
    (∀ s ∈ [facing { repliedRead with rxEsc := true } (.move .seq),
        facing { waitingRead with toLimit := 1 } (.move .tick),
        facing { State.reset with src := 0xA0 } (.coded .cmd [0x01])],
      s.done = false ∧ s.err = false ∧
        (after (step s)).map (fun t => (t.done, t.err)) = some (true, true)) ∧
    (∀ s ∈ [facing waitingRead (.move (.line .framingError))],
      s.lineErr = false ∧ (after (step s)).map State.lineErr = some true) ∧
    (∀ s ∈ [facing framedRead (.coded .cmd [0x01]), facing State.reset (.coded .cmd [0x03]),
        facing framedRead (.coded .bus [0x84, 0x00])],
      s.rej = false ∧ (after (step s)).map State.rej = some true) := by decide

/-- RX_RES by VALIDATE of a body whose residue is not 0, and by the acceptance after it. -/
theorem witness_CrcRegistersChangeOnlyByTheirCauses :
    (∃ s t : State, step s = .next t ∧ t.crcAcc ≠ s.crcAcc) ∧
    (∃ s t : State, step s = .next t ∧ t.txCrc ≠ s.txCrc) ∧
    (∃ s t : State, step s = .next t ∧ s.phase = .validating ∧ t.rxRes ≠ s.rxRes) ∧
    (∃ s t : State, step s = .next t ∧ s.phase = .idle ∧ t.rxRes ≠ s.rxRes) :=
  ⟨⟨facing State.reset (.coded .bus [0x91, 0x31]), _, rfl, by decide⟩,
    ⟨facing { State.reset with reg := 0x61 } (.coded .cmd [0x01]), _, rfl, by decide +kernel⟩,
    ⟨facing { repliedRead with rxCrc := 0x1021 } (.move .seq), _, rfl, by decide, by decide⟩,
    ⟨facing { State.reset with rxRes := 0x1021 } (.coded .cmd [0x01]), _, rfl, by decide, by decide⟩⟩

end Sys2Proof.Tests
end

section
/-!
PROOFS. The scope rules (spec/00_scope.md rules R4 and R11): the free move taken with nothing lined up,
and the arrows of the send and receive cycle.
-/

namespace Sys2Proof.Machine

/-! ### The free move -/

/-- With nothing lined up the fetch finds the free move at the counter, and uses it up. -/
theorem fetch_of_agenda_nil {s : State} (h : s.agenda = []) :
    fetch s = fetchMove (Config.freeMove s.fresh) s.bumpFresh := by
  simp only [fetch, h]

/-- A move at the front of the agenda is the move fetched, and is taken off the agenda. -/
theorem fetch_of_agenda_move {s : State} {m : Move} {es : List Event}
    (h : s.agenda = .move m :: es) : fetch s = fetchMove m (s.setAgenda es) := by
  simp only [fetch, h]

/-- A step depends on the state through its fetch only. -/
theorem step_eq_of_fetch_eq {s s' : State} (h : fetch s = fetch s') : step s = step s' := by
  unfold step
  rw [h]

/-- Settles O25: both fetches find the free move, in the state with the counter advanced. -/
theorem emptyAgendaTakesAFreeMove : Obligations.EmptyAgendaTakesAFreeMove := by
  intro s h
  apply step_eq_of_fetch_eq
  rw [fetch_of_agenda_nil h, fetch_of_agenda_move (es := []) rfl]
  have hs : s.bumpFresh.setAgenda [] = s.bumpFresh := by rw [← h]; rfl
  exact congrArg _ hs.symm

/-! ### The arrows of the cycle -/

/-- What one step may do to the phase: nothing, return to IDLE, or one arrow of the send and receive
cycle (rules R4 and R50). -/
inductive PhaseMove : Phase → Phase → Prop where
  | stay (p : Phase) : PhaseMove p p
  | toIdle (p : Phase) : PhaseMove p .idle
  | beginFrame : PhaseMove .idle .framing
  | frameSent : PhaseMove .framing .awaitStart
  | bodyOpens : PhaseMove .awaitStart .recvBody
  | bodyEnds : PhaseMove .recvBody .validating

theorem phaseMove_iff (p q : Phase) : PhaseMove p q ↔
    p = q ∨ q = .idle ∨ (p = .idle ∧ q = .framing) ∨ (p = .framing ∧ q = .awaitStart) ∨
      (p = .awaitStart ∧ q = .recvBody) ∨ (p = .recvBody ∧ q = .validating) := by
  constructor
  · rintro (_ | _ | _ | _ | _ | _) <;> simp
  · rintro (rfl | rfl | ⟨rfl, rfl⟩ | ⟨rfl, rfl⟩ | ⟨rfl, rfl⟩ | ⟨rfl, rfl⟩)
    · exact .stay _
    · exact .toIdle _
    · exact .beginFrame
    · exact .frameSent
    · exact .bodyOpens
    · exact .bodyEnds

theorem PhaseMove.of_eq {p q : Phase} (h : q = p) : PhaseMove p q := h ▸ .stay _

theorem PhaseMove.of_idle {p q : Phase} (h : q = .idle) : PhaseMove p q := h ▸ .toIdle _

theorem Scheduled.phase_eq {s u : State} (h : Scheduled s u) : u.phase = s.phase := by
  obtain ⟨es, n, rfl⟩ := h
  rfl

/-- A command is rejected, completes at once, or begins its frame from IDLE (rules R203, R206, R208). -/
theorem issue_phaseMove (s : State) (o : Op) : PhaseMove s.phase (s.issue o).phase := by
  rcases issue_cases s o with ⟨_, e⟩ | ⟨_, _, e⟩ | ⟨hp, _, e⟩ <;> rw [e]
  · exact .stay _
  · exact .toIdle _
  · rw [hp]; exact .beginFrame

/-- VALIDATE always completes (rule R250). -/
theorem validate_phase (s : State) (t : Byte) : (s.validate t).phase = .idle := by
  rcases validate_cases s t with ⟨_, _, e⟩ | ⟨_, _, _, _, e⟩ <;> rw [e, complete_phase]

theorem response_phaseMove (s : State) (t : Byte) : PhaseMove s.phase (s.response t).phase := by
  rcases response_cases s t with ⟨_, e⟩ | ⟨_, e⟩ <;> rw [e]
  · exact .of_idle (validate_phase s t)
  · exact .stay _

theorem bodyByte_phase (s : State) (b : Byte) : (s.bodyByte b).phase = s.phase := by
  rcases bodyByte_cases s b with ⟨_, e⟩ | ⟨_, _, e⟩ | ⟨_, _, e⟩ <;> rw [e] <;> rfl

/-- One delivered byte takes at most one arrow: the START that opens the body or the END that closes it
(rules R241 and R242). -/
theorem lineRecv_phaseMove (s : State) (b : Byte) : PhaseMove s.phase (s.lineRecv b).phase := by
  rcases lineRecv_cases s b with e | ⟨hp, _, e⟩ | ⟨hp, _, e⟩ | ⟨_, _, e⟩ <;> rw [e]
  · exact .stay _
  · rw [hp]; exact .bodyOpens
  · rw [hp]; exact .bodyEnds
  · exact .of_eq (bodyByte_phase s b)

/-- ESC is neither START nor END, so it takes no arrow. -/
theorem lineRecv_esc_phase (s : State) : (s.lineRecv escByteMark).phase = s.phase := by
  rcases lineRecv_cases s escByteMark with e | ⟨_, hb, _⟩ | ⟨_, hb, _⟩ | ⟨_, _, e⟩
  · rw [e]
  · exact absurd hb (by decide)
  · exact absurd hb (by decide)
  · rw [e, bodyByte_phase]

/-- A SYM or CHAR row delivers one byte, or ESC and a second one (notes/assumptions/12). -/
theorem exec_line_cases {i : Instr} (h : i.format = .sym ∨ i.format = .char) (s : State) :
    (∃ b, exec i s = .next (s.lineRecv b)) ∨
    (∃ b, exec i s = .next ((s.lineRecv escByteMark).lineRecv b)) := by
  cases i with
  | symStart => exact .inl ⟨_, rfl⟩
  | symEnd => exact .inl ⟨_, rfl⟩
  | literal b => exact .inl ⟨b, rfl⟩
  | char b => exact .inl ⟨b, rfl⟩
  | esc0A => exact .inr ⟨_, rfl⟩
  | esc0D => exact .inr ⟨_, rfl⟩
  | esc5E => exact .inr ⟨_, rfl⟩
  | escNoncanon y => exact .inr ⟨y, rfl⟩
  | _ => simp [Instr.format] at h

/-- Of the two bytes of a pair only the second can take an arrow. -/
theorem exec_line_phaseMove {i : Instr} {s t : State} (h : i.format = .sym ∨ i.format = .char)
    (he : exec i s = .next t) : PhaseMove s.phase t.phase := by
  rcases exec_line_cases h s with ⟨b, e⟩ | ⟨b, e⟩ <;> rw [e] at he <;> cases he
  · exact lineRecv_phaseMove s b
  · have hmove := lineRecv_phaseMove (s.lineRecv escByteMark) b
    rwa [lineRecv_esc_phase] at hmove

/-- Of the effects of an instruction, commands, responses and delivered bytes touch the phase. -/
theorem exec_phaseMove {i : Instr} {s t : State} (h : exec i s = .next t) :
    PhaseMove s.phase t.phase := by
  cases exec_effect h with
  | issue o _ => exact issue_phaseMove s o
  | response _ b => exact response_phaseMove s b
  | line hf bs => exact exec_line_phaseMove hf h
  | _ => exact .stay _

theorem countTick_phaseMove (s : State) (c : ErrCode) :
    PhaseMove s.phase (s.countTick c).phase := by
  rcases countTick_cases s c with ⟨_, e⟩ | ⟨_, e⟩ <;> rw [e]
  · exact .toIdle _
  · exact .stay _

/-- A tick changes the phase only by ending a wait (rule R361). -/
theorem tick_phaseMove (s : State) : PhaseMove s.phase s.tick.phase := by
  rcases tick_cases s with ⟨_, e⟩ | ⟨_, e⟩ | ⟨_, _, e⟩ <;> rw [e]
  · exact countTick_phaseMove s _
  · exact countTick_phaseMove s _
  · exact .stay _

/-- The last byte handed over ends FRAMING (rule R210). -/
theorem emit_phaseMove {s : State} (h : s.phase = .framing) (b : Byte) :
    PhaseMove s.phase (s.lineSend b).advanceTx.phase := by
  rw [advanceTx_phase, lineSend_phase]
  split
  · rw [h]; exact .frameSent
  · exact .stay _

theorem runAgent_phaseMove {a : AgentStep} {s t : State} (hen : a.Enabled s)
    (h : runAgent a s = .next t) : PhaseMove s.phase t.phase := by
  cases a with
  | txEmit =>
    have ht : txEmit s = .next t := h
    obtain ⟨hp, _⟩ := hen
    rcases txEmit_cases s with ⟨b, _, e⟩ | ⟨_, e⟩ <;> rw [e] at ht <;> cases ht
    exact emit_phaseMove hp b
  | utxDone => cases h; exact .stay _
  | framingError => cases h; exact .stay _
  | tick => cases h; exact tick_phaseMove s
  | reset => cases h; exact .toIdle _
  | disabled => cases h; exact .stay _

/-- A step is scheduling, which leaves the phase, and then one instruction or one agent's step. -/
theorem step_phaseMove {s t : State} (h : step s = .next t) : PhaseMove s.phase t.phase := by
  rcases step_cases h with ⟨i, u, _, hs, he⟩ | ⟨a, u, _, hs, hen, he⟩ | hs
  · rw [← hs.phase_eq]; exact exec_phaseMove he
  · rw [← hs.phase_eq]; exact runAgent_phaseMove hen he
  · exact .of_eq hs.phase_eq

/-- Settles O58, by what each instruction and each agent's step does to the phase. -/
theorem phasesFollowTheCycle : Obligations.PhasesFollowTheCycle :=
  fun _ _ h => (phaseMove_iff _ _).1 (step_phaseMove h)

end Sys2Proof.Machine
end

section
/-!
PROOFS. The state (spec/10_state.md): what keeps its fields legal (rules R33 to R57), the frame of a write
to TXBUF (rule R49), the causes of the sticky flags (rule R56) and the steps that are not enabled
(rule R30).
-/

namespace Sys2Proof.Machine

/-! ### Agents whose step is not enabled -/

/-- A step that is not enabled leaves the state the fetch hands on (notes/assumptions/7). -/
theorem step_of_fetch_disabled {s u : State} (h : fetch s = .agent .disabled u) :
    step s = .next u := by
  unfold step
  rw [h]
  rfl

theorem fetchMove_utx_disabled {s : State} (h : s.utxBusy = false) :
    fetchMove .utx s = .agent .disabled s := by
  simp [fetchMove, h]

/-- SEQ's step is enabled only in VALIDATING, and in FRAMING with the transmitter free (rules R210 and
R250). -/
theorem fetchMove_seq_disabled {s : State}
    (h : s.phase = .idle ∨ s.phase = .awaitStart ∨ s.phase = .recvBody ∨
      (s.phase = .framing ∧ s.utxBusy = true)) :
    fetchMove .seq s = .agent .disabled s := by
  rcases h with hp | hp | hp | ⟨hp, hb⟩
  · simp [fetchMove, fetchSeq, hp]
  · simp [fetchMove, fetchSeq, hp]
  · simp [fetchMove, fetchSeq, hp]
  · simp [fetchMove, fetchSeq, hp, hb]

/-- Settles O30: the move is fetched as the step that is not enabled. -/
theorem disabledAgentsChangeNothing : Obligations.DisabledAgentsChangeNothing := by
  intro s es
  constructor
  · intro ha hb
    have hf := fetchMove_utx_disabled (s := s.setAgenda es) hb
    exact step_of_fetch_disabled ((fetch_of_agenda_move ha).trans hf)
  · intro ha hp
    have hf := fetchMove_seq_disabled (s := s.setAgenda es) hp
    exact step_of_fetch_disabled ((fetch_of_agenda_move ha).trans hf)

/-! ### A write to TXBUF -/

/-- Rule R316 at an index that exists. -/
theorem exec_wrTxbuf_idle {s : State} {i : BitVec 5} (d : Byte) (hp : s.phase = .idle)
    (hi : i.toNat < s.cfg.txbuf) : exec (.wrTxbuf i d) s = .next (s.setTxbuf i.toNat d) :=
  (if_pos hi).trans (operandWrite_idle hp)

/-- Settles O4, by the laws of one write to a canonical memory. -/
theorem txbufWriteChangesOneByte : Obligations.TxbufWriteChangesOneByte := by
  intro s i d hm hp hi
  exact ⟨s.setTxbuf i.toNat d, exec_wrTxbuf_idle d hp hi, Memory.wf_write hm, rfl,
    fun _ => Memory.read_write hm⟩

/-! ### Legal values -/

/-- The addresses of the two buffers of the given depths (rules R49 and R57): those a legal memory
lists. -/
def BufferAddr (p : Config.Params) (a : Nat) : Prop :=
  (txbufBase ≤ a ∧ a < txbufBase + p.txbuf) ∨ (rxbufBase ≤ a ∧ a < rxbufBase + p.rxbuf)

theorem bufferAddr_txbuf {p : Config.Params} {k : Nat} (h : k < p.txbuf) :
    BufferAddr p (txbufBase + k) :=
  .inl ⟨Nat.le_add_right .., Nat.add_lt_add_left h _⟩

theorem bufferAddr_rxbuf {p : Config.Params} {k : Nat} (h : k < p.rxbuf) :
    BufferAddr p (rxbufBase + k) :=
  .inr ⟨Nat.le_add_right .., Nat.add_lt_add_left h _⟩

theorem State.Legal.bufferAddr {s : State} (h : s.Legal) : ∀ c ∈ s.mem, BufferAddr s.cfg c.1 :=
  h.listed

/-- A write inside the buffers lists no address outside them. -/
theorem bufferAddr_of_mem_write {p : Config.Params} {m : Memory} {a : Nat} {v : Byte}
    (hm : ∀ c ∈ m, BufferAddr p c.1) (ha : BufferAddr p a) :
    ∀ c ∈ m.write a v, BufferAddr p c.1 := by
  intro c hc
  rcases Memory.mem_write hc with rfl | hc
  · exact ha
  · exact hm c hc

/-- The buffers a RST step leaves list only their own addresses. -/
theorem bufferAddr_of_mem_afterReset {p : Config.Params} {n : Nat} :
    ∀ c ∈ Memory.afterReset p n, BufferAddr p c.1 := by
  intro c hc
  rcases Memory.mem_fill hc with hc | hrx
  · rcases Memory.mem_fill hc with hc | htx
    · cases hc
    · exact .inl htx
  · exact .inr hrx

/-- Rule R314 keeps no reserved bit of CTRL. -/
theorem ctrlKept_reserved (d : Byte) : ctrlKept d &&& 0xFC = 0x00 := by
  have hmask : (0x03 : Byte) &&& 0xFC = 0x00 := by decide
  rw [ctrlKept, BitVec.and_assoc, hmask]
  exact BitVec.and_zero

/-- Rule R256 sets no reserved bit of RX_INFO. -/
theorem rxInfoByte_reserved : ∀ d s r : Bool, rxInfoByte d s r &&& 0xF0 = 0x00 := by decide

theorem errCode_toByte_le (c : ErrCode) : c.toByte.toNat ≤ 0x0B := by
  cases c <;> decide

/-- A byte made of a number capped at m is at most m, whatever m is. -/
theorem toNat_ofNat_min_le (n m : Nat) : (BitVec.ofNat 8 (min n m)).toNat ≤ m := by
  rw [BitVec.toNat_ofNat]
  exact (Nat.mod_le ..).trans (Nat.min_le_right ..)

theorem Scheduled.legal {s u : State} (hs : Scheduled s u) (h : s.Legal) : u.Legal := by
  obtain ⟨es, n, rfl⟩ := hs
  exact { h with }

theorem legal_setTxbuf {s : State} (h : s.Legal) {k : Nat} (hk : k < s.cfg.txbuf) (d : Byte) :
    (s.setTxbuf k d).Legal :=
  { h with
    canonical := Memory.wf_write h.canonical
    listed := bufferAddr_of_mem_write h.bufferAddr (bufferAddr_txbuf hk) }

theorem legal_complete {s : State} (h : s.Legal) (c : ErrCode) : (s.complete c).Legal :=
  { h with errcode := errCode_toByte_le c }

theorem legal_accept {s : State} (h : s.Legal) (o : Op) : (s.accept o).Legal :=
  { h with
    errcode := Nat.zero_le _
    rxBlen := Nat.zero_le _
    rxInfo := BitVec.zero_and
    rxCnt := Nat.zero_le _ }

theorem legal_startFrame {s : State} (h : s.Legal) (c : Byte) (p : List Byte) :
    (s.startFrame c p).Legal :=
  { h with txIdx := Nat.zero_le _ }

theorem legal_issue {s : State} (h : s.Legal) (o : Op) : (s.issue o).Legal := by
  rcases issue_cases s o with ⟨_, e⟩ | ⟨_, _, e⟩ | ⟨_, _, e⟩ <;> rw [e]
  · exact { h with }
  · exact legal_complete (legal_accept h o) _
  · exact legal_startFrame (legal_accept h o) ..

theorem legal_publish {s : State} (h : s.Legal) : s.publish.Legal :=
  { h with rxBlen := toNat_ofNat_min_le .. }

theorem legal_setRxInfo {s : State} (h : s.Legal) {v : Byte} (hv : v &&& 0xF0 = 0x00) :
    (s.setRxInfo v).Legal :=
  { h with rxInfo := hv }

theorem legal_validate {s : State} (h : s.Legal) (t : Byte) : (s.validate t).Legal := by
  rcases validate_cases s t with ⟨c, _, e⟩ | ⟨_, _, _, _, e⟩ <;> rw [e]
  · exact legal_complete (legal_publish h) c
  · exact legal_complete (legal_setRxInfo (legal_publish h) (rxInfoByte_reserved ..)) _

theorem legal_response {s : State} (h : s.Legal) (t : Byte) : (s.response t).Legal := by
  rcases response_cases s t with ⟨_, e⟩ | ⟨_, e⟩ <;> rw [e]
  · exact legal_validate h t
  · exact h

/-- A byte past RXBUF is counted up to the cap and stored nowhere (rule R245). -/
theorem legal_store {s : State} (h : s.Legal) (d : Byte) : (s.store d).Legal := by
  have hcnt : (s.store d).rxCnt ≤ s.cfg.rxbuf + 1 := Nat.min_le_right ..
  by_cases hfits : s.rxCnt < s.cfg.rxbuf
  · have hmem : (s.store d).mem = s.mem.write (rxbufBase + s.rxCnt) d := if_pos hfits
    exact { h with
      canonical := hmem ▸ Memory.wf_write h.canonical
      listed := hmem ▸ bufferAddr_of_mem_write h.bufferAddr (bufferAddr_rxbuf hfits)
      rxCnt := hcnt }
  · have hmem : (s.store d).mem = s.mem := if_neg hfits
    exact { h with
      canonical := hmem ▸ h.canonical
      listed := hmem ▸ h.listed
      rxCnt := hcnt }

theorem legal_lineRecvAll {s : State} (h : s.Legal) (bs : List Byte) : (s.lineRecvAll bs).Legal :=
  reception_keeps (P := State.Legal)
    (hopen := fun _ _ h => { h with rxCnt := Nat.zero_le _ })
    (hend := fun _ _ h => { h with })
    (hesc := fun _ _ _ h => { h with })
    (hstore := fun _ d _ h => legal_store h d) bs h

theorem legal_countTick {s : State} (h : s.Legal) (c : ErrCode) : (s.countTick c).Legal := by
  have hcount : (s.setToCnt (countUp s.toCnt)).Legal := { h with }
  rcases countTick_cases s c with ⟨_, e⟩ | ⟨_, e⟩ <;> rw [e]
  · exact legal_complete hcount c
  · exact hcount

theorem legal_tick {s : State} (h : s.Legal) : s.tick.Legal := by
  rcases tick_cases s with ⟨_, e⟩ | ⟨_, e⟩ | ⟨_, _, e⟩ <;> rw [e]
  · exact legal_countTick h _
  · exact legal_countTick h _
  · exact h

theorem legal_powerReset {s : State} (h : s.Legal) : s.powerReset.Legal where
  cfg := h.cfg
  canonical := Memory.wf_afterReset ..
  listed := bufferAddr_of_mem_afterReset
  ctrl := BitVec.zero_and
  errcode := Nat.zero_le _
  txLen := Nat.zero_le _
  rxBlen := Nat.zero_le _
  rxInfo := BitVec.zero_and
  rxCnt := Nat.zero_le _
  txIdx := Nat.le_refl _

/-- TX_EMIT has read a byte at the index, so one more is still within the frame (rule R210). -/
theorem legal_emit {s : State} (h : s.Legal) {b : Byte} (hb : s.txFrame[s.txIdx]? = some b) :
    (s.lineSend b).advanceTx.Legal := by
  obtain ⟨hlt, _⟩ := List.getElem?_eq_some_iff.1 hb
  unfold State.advanceTx
  split
  · exact { h with txIdx := hlt }
  · exact { h with txIdx := hlt }

/-- Of the effects of an instruction, these touch a field with a range; the others leave all of them. -/
theorem Effect.legal {i : Instr} {s t : State} (he : Effect i s t) (h : s.Legal) : t.Legal := by
  cases he with
  | ctrl d => exact { h with ctrl := ctrlKept_reserved d }
  | txLen _ d => exact { h with txLen := toNat_ofNat_min_le .. }
  | txbuf _ k hk d => exact legal_setTxbuf h hk d
  | issue o _ => exact legal_issue h o
  | response _ b => exact legal_response h b
  | line _ bs => exact legal_lineRecvAll h bs
  | _ => exact { h with }

/-- Settles O50: every effect of an instruction and every agent's step keeps the fields legal. -/
theorem stepKeepsLegal : Obligations.StepKeepsLegal := fun _ _ hs hstep =>
  step_keeps
    (hsched := fun _ _ hu h => hu.legal h)
    (heffect := fun _ _ _ he h => he.legal h)
    (hutx := fun _ _ h => { h with })
    (herror := fun _ h => { h with })
    (htick := fun _ h => legal_tick h)
    (hreset := fun _ h => legal_powerReset h)
    (hemit := fun _ _ _ _ hb h => legal_emit h hb) hs hstep

/-! ### The causes of the sticky flags -/

/-- No sticky flag of STATUS is set in t that is clear in s. -/
structure NoFlagRises (s t : State) : Prop where
  done : t.done = true → s.done = true
  err : t.err = true → s.err = true
  lineErr : t.lineErr = true → s.lineErr = true
  rej : t.rej = true → s.rej = true

theorem NoFlagRises.refl (s : State) : NoFlagRises s s := ⟨id, id, id, id⟩

theorem NoFlagRises.trans {s u t : State} (h : NoFlagRises s u) (h' : NoFlagRises u t) :
    NoFlagRises s t :=
  ⟨h.done ∘ h'.done, h.err ∘ h'.err, h.lineErr ∘ h'.lineErr, h.rej ∘ h'.rej⟩

theorem Scheduled.noFlagRises {s u : State} (h : Scheduled s u) : NoFlagRises s u := by
  obtain ⟨es, n, rfl⟩ := h
  exact ⟨id, id, id, id⟩

/-- A flag that is set after a write to STATUS was set before it (rule R315). -/
theorem w1c_imp {flag : Bool} {d : Byte} {k : Nat} (h : w1c flag d k = true) : flag = true :=
  Bool.and_elim_left h

theorem clearFlags_noFlagRises (s : State) (d : Byte) : NoFlagRises s (s.clearFlags d) :=
  ⟨w1c_imp, w1c_imp, w1c_imp, w1c_imp⟩

/-- Acceptance clears DONE and ERR and leaves the other two (rule R207). -/
theorem startFrame_accept_noFlagRises (s : State) (o : Op) (c : Byte) (p : List Byte) :
    NoFlagRises s ((s.accept o).startFrame c p) :=
  ⟨nofun, nofun, id, id⟩

theorem powerReset_noFlagRises (s : State) : NoFlagRises s s.powerReset :=
  ⟨nofun, nofun, nofun, nofun⟩

/-- Delivered bytes touch no flag (rules R240 to R245). -/
theorem lineRecvAll_noFlagRises (s : State) (bs : List Byte) : NoFlagRises s (s.lineRecvAll bs) :=
  reception_keeps (P := NoFlagRises s)
    (hopen := fun _ _ h => { h with })
    (hend := fun _ _ h => { h with })
    (hesc := fun _ _ _ h => { h with })
    (hstore := fun _ _ _ h => { h with }) bs (.refl s)

theorem emit_noFlagRises (s : State) (b : Byte) : NoFlagRises s (s.lineSend b).advanceTx := by
  constructor <;> simp

/-- How the flags of t come about in the step from s: none rises, or the step is one of the three
causes of rule R56. -/
inductive FlagCause (s t : State) : Prop where
  | none (h : NoFlagRises s t)
  | completion (c : ErrCode) (h : CompletesWith s t c)
  | framingError (u : State) (hf : fetch s = .agent .framingError u) (ht : t = u.framingError)
  | rejection (i : Instr) (u : State) (hf : s.Fetches i u) (hr : Rejected i u) (ht : t = u.reject)

/-- A command is rejected while BUSY, completes with SRC out of range, or lowers DONE and ERR. -/
theorem issue_flagCause {s u : State} {i : Instr} {o : Op} (hs : Scheduled s u)
    (hf : s.Fetches i u) (hi : commandOf i = some o) : FlagCause s (u.issue o) := by
  rcases issue_cases u o with ⟨hp, e⟩ | ⟨hp, hsrc, e⟩ | ⟨_, _, e⟩ <;> rw [e]
  · exact .rejection i u hf (.inr ⟨hp, .inl ⟨o, hi⟩⟩) rfl
  · exact .completion .srcRange (.inr (.inr ⟨i, u, o, hf, hi, hp, hsrc, rfl, rfl⟩))
  · exact .none (hs.noFlagRises.trans (startFrame_accept_noFlagRises ..))

theorem response_flagCause {s u : State} {i : Instr} (hs : Scheduled s u) (hf : s.Fetches i u)
    (hi : i.format = .rsp) (b : Byte) : FlagCause s (u.response b) := by
  rcases response_cases u b with ⟨hp, e⟩ | ⟨_, e⟩ <;> rw [e]
  · rcases validate_cases u b with ⟨c, _, e⟩ | ⟨_, _, _, _, e⟩ <;> rw [e]
    · exact .completion c (.inr (.inl ⟨i, u, hf, hi, hp, .inl rfl⟩))
    · exact .completion _ (.inr (.inl ⟨i, u, hf, hi, hp, .inr rfl⟩))
  · exact .none hs.noFlagRises

/-- An instruction sets a flag only by a rejection or a completion. -/
theorem Effect.flagCause {s u t : State} {i : Instr} (he : Effect i u t) (hs : Scheduled s u)
    (hf : s.Fetches i u) : FlagCause s t := by
  cases he with
  | reserved hr => exact .rejection i u hf (.inl hr) rfl
  | refused hp hw => exact .rejection i u hf (.inr ⟨hp, .inr hw⟩) rfl
  | flags d => exact .none (hs.noFlagRises.trans (clearFlags_noFlagRises u d))
  | issue o hi => exact issue_flagCause hs hf hi
  | response hi b => exact response_flagCause hs hf hi b
  | line _ bs => exact .none (hs.noFlagRises.trans (lineRecvAll_noFlagRises u bs))
  | _ => exact .none { hs.noFlagRises with }

/-- A tick that does not end its wait leaves the flags (rule R361). -/
theorem countTick_flagCause {s u : State} {c : ErrCode} (hs : Scheduled s u)
    (hf : fetch s = .agent .tick u)
    (hc : u.phase = .awaitStart ∧ c = .timeoutStart ∨ u.phase = .recvBody ∧ c = .timeoutEnd) :
    FlagCause s (u.countTick c) := by
  rcases countTick_cases u c with ⟨_, e⟩ | ⟨_, e⟩ <;> rw [e]
  · exact .completion c (.inl ⟨u, hf, rfl, hc⟩)
  · exact .none { hs.noFlagRises with }

theorem tick_flagCause {s u : State} (hs : Scheduled s u) (hf : fetch s = .agent .tick u) :
    FlagCause s u.tick := by
  rcases tick_cases u with ⟨hp, e⟩ | ⟨hp, e⟩ | ⟨_, _, e⟩ <;> rw [e]
  · exact countTick_flagCause hs hf (.inl ⟨hp, rfl⟩)
  · exact countTick_flagCause hs hf (.inr ⟨hp, rfl⟩)
  · exact .none hs.noFlagRises

theorem step_flagCause {s t : State} (h : step s = .next t) : FlagCause s t := by
  rcases step_effect h with hs | ⟨u, hs, hc⟩
  · exact .none hs.noFlagRises
  · rcases hc with ⟨i, hf, he⟩ | ⟨_, _, rfl⟩ | ⟨hf, rfl⟩ | ⟨hf, rfl⟩ | ⟨_, rfl⟩ | ⟨_, _, _, b, _, rfl⟩
    · exact he.flagCause hs hf
    · exact .none { hs.noFlagRises with }
    · exact .framingError u hf rfl
    · exact tick_flagCause hs hf
    · exact .none (hs.noFlagRises.trans (powerReset_noFlagRises u))
    · exact .none (hs.noFlagRises.trans (emit_noFlagRises u b))

/-- The state an agent's step runs in has the flags the step began with. -/
theorem noFlagRises_of_fetch_agent {s u : State} {a : AgentStep} (h : fetch s = .agent a u) :
    NoFlagRises s u :=
  (fetch_scheduled (congrArg Fetched.state? h)).noFlagRises

/-- The state an instruction runs in has the flags the step began with. -/
theorem State.Fetches.noFlagRises {s u : State} {i : Instr} (h : s.Fetches i u) : NoFlagRises s u :=
  (fetch_scheduled (congrArg Fetched.state? h)).noFlagRises

/-- A completion is Complete (rule R345) of a state in which no flag has risen yet. -/
theorem CompletesWith.eq_complete {s t : State} {c : ErrCode} (h : CompletesWith s t c) :
    ∃ v : State, t = v.complete c ∧ NoFlagRises s v := by
  rcases h with ⟨u, hf, e, _⟩ | ⟨i, u, hf, _, _, e | e⟩ | ⟨i, u, o, hf, _, _, _, _, e⟩
  · exact ⟨_, e, { noFlagRises_of_fetch_agent hf with }⟩
  · exact ⟨_, e, { hf.noFlagRises with }⟩
  · exact ⟨_, e, { hf.noFlagRises with }⟩
  · exact ⟨_, e, { hf.noFlagRises with done := nofun, err := nofun }⟩

theorem CompletesWith.code_ne_none {s t : State} {c : ErrCode} (h : CompletesWith s t c)
    (ht : t.err = true) : c ≠ .none := by
  obtain ⟨v, rfl, _⟩ := h.eq_complete
  exact of_decide_eq_true ht

theorem CompletesWith.lineErr {s t : State} {c : ErrCode} (h : CompletesWith s t c) :
    t.lineErr = true → s.lineErr = true := by
  obtain ⟨v, rfl, hv⟩ := h.eq_complete
  exact hv.lineErr

theorem CompletesWith.rej {s t : State} {c : ErrCode} (h : CompletesWith s t c) :
    t.rej = true → s.rej = true := by
  obtain ⟨v, rfl, hv⟩ := h.eq_complete
  exact hv.rej

/-- A flag that is set only if it was set before does not go from 0 to 1. -/
theorem of_flag_rises {a b : Bool} {P : Prop} (h : b = true → a = true) (ha : a = false)
    (hb : b = true) : P :=
  absurd (h hb) (Bool.eq_false_iff.1 ha)

/-- Settles O59: each cause of a step sets its own flags and leaves the others. -/
theorem flagsAreSetOnlyByTheirCauses : Obligations.FlagsAreSetOnlyByTheirCauses := by
  intro s t h
  cases step_flagCause h with
  | none hn =>
    exact ⟨of_flag_rises hn.done, of_flag_rises hn.err, of_flag_rises hn.lineErr,
      of_flag_rises hn.rej⟩
  | completion c hc =>
    exact ⟨fun _ _ => ⟨c, hc⟩, fun _ ht => ⟨c, hc.code_ne_none ht, hc⟩, of_flag_rises hc.lineErr,
      of_flag_rises hc.rej⟩
  | framingError u hf ht =>
    subst ht
    have hu := noFlagRises_of_fetch_agent hf
    exact ⟨of_flag_rises hu.done, of_flag_rises hu.err, fun _ _ => ⟨u, hf, rfl⟩,
      of_flag_rises hu.rej⟩
  | rejection i u hf hr ht =>
    subst ht
    have hu := hf.noFlagRises
    exact ⟨of_flag_rises hu.done, of_flag_rises hu.err, of_flag_rises hu.lineErr,
      fun _ _ => ⟨i, u, hf, hr, rfl⟩⟩

end Sys2Proof.Machine
end

section
/-!
PROOFS. The memory map (spec/20_memory.md rule R95): a frame in flight stays the frame of the operands,
which nothing writes while BUSY (rule R313).
-/

namespace Sys2Proof.Machine

/-! ### Reception leaves the operands -/

/-- TXBUF ends where RXBUF begins, or before (rules R6, R49 and R57). -/
theorem txbuf_below_rxbuf {p : Config.Params} (h : p.wf = true) {i : Nat} (hi : i < p.txbuf) :
    txbufBase + i < rxbufBase := by
  have hp : p.txbuf ≤ 32 := by
    simp only [Config.Params.wf, Bool.and_eq_true, decide_eq_true_eq] at h
    omega
  simp only [txbufBase, rxbufBase]
  omega

/-- A stored byte goes to RXBUF (rule R245). -/
theorem store_read_below (s : State) (d : Byte) {a : Nat} (ha : a < rxbufBase) :
    (s.store d).mem.read a = s.mem.read a := by
  rw [store_mem]
  split
  · exact Memory.read_write_other (by omega)
  · rfl

theorem store_txbufAt {s : State} (h : s.cfg.wf = true) (d : Byte) (i : Nat) :
    (s.store d).txbufAt i = s.txbufAt i := by
  unfold State.txbufAt
  rw [store_cfg]
  by_cases hi : i < s.cfg.txbuf
  · rw [if_pos hi, if_pos hi, store_read_below s d (txbuf_below_rxbuf h hi)]
  · rw [if_neg hi, if_neg hi]

theorem store_payload {s : State} (h : s.cfg.wf = true) (d : Byte) (o : Op) :
    (s.store d).payload o = s.payload o := by
  cases o with
  | read => rfl
  | write => exact List.map_congr_left fun i _ => store_txbufAt h d i

/-! ### The frame in flight -/

theorem frame_length_pos (body : List Byte) : 0 < (frame body).length := by
  simp [frame]

/-- While IDLE no frame is in flight. -/
theorem frozen_of_idle {s : State} (hcfg : s.cfg.wf = true) (hp : s.phase = .idle) : s.Frozen where
  cfg := hcfg
  frame := fun hbusy => absurd hp hbusy
  txCrc := fun hbusy => absurd hp hbusy
  framing := fun hf => nomatch hp.symm.trans hf
  sent := fun hbusy => absurd hp hbusy

theorem Scheduled.frozen {s u : State} (hs : Scheduled s u) (h : s.Frozen) : u.Frozen := by
  obtain ⟨es, n, rfl⟩ := hs
  exact { h with }

/-- The frame begun is that of the operands: acceptance leaves them (rules R207 and R208). -/
theorem frozen_startFrame_accept {s : State} (hcfg : s.cfg.wf = true) (o : Op) :
    ((s.accept o).startFrame (telegramCode o) (s.payload o)).Frozen where
  cfg := hcfg
  frame := fun _ => by cases o <;> rfl
  txCrc := fun _ => by cases o <;> rfl
  framing := fun _ => frame_length_pos _
  sent := fun _ hnot => absurd rfl hnot

theorem frozen_issue {s : State} (h : s.Frozen) (o : Op) : (s.issue o).Frozen := by
  rcases issue_cases s o with ⟨_, e⟩ | ⟨_, _, e⟩ | ⟨_, _, e⟩ <;> rw [e]
  · exact { h with }
  · exact frozen_of_idle h.cfg rfl
  · exact frozen_startFrame_accept h.cfg o

theorem frozen_response {s : State} (h : s.Frozen) (t : Byte) : (s.response t).Frozen := by
  rcases response_cases s t with ⟨_, e⟩ | ⟨_, e⟩ <;> rw [e]
  · have hcfg : (s.validate t).cfg.wf = true := by
      rcases validate_cases s t with ⟨_, _, e⟩ | ⟨_, _, _, _, e⟩ <;> rw [e] <;> exact h.cfg
    exact frozen_of_idle hcfg (validate_phase s t)
  · exact h

/-- In a delimiter wait the whole frame has been handed over (rule R210), and it stays so in whatever
phase but FRAMING comes next. -/
theorem State.Frozen.leave_wait {s : State} (h : s.Frozen)
    (hp : s.phase = .awaitStart ∨ s.phase = .recvBody) {q : Phase} (hq : q ≠ .framing) :
    State.Frozen { s with phase := q } := by
  have hbusy : s.phase ≠ .idle := by rcases hp with e | e <;> rw [e] <;> decide
  have hsent : s.phase ≠ .framing := by rcases hp with e | e <;> rw [e] <;> decide
  exact {
    cfg := h.cfg
    frame := fun _ => h.frame hbusy
    txCrc := fun _ => h.txCrc hbusy
    framing := fun hf => absurd hf hq
    sent := fun _ _ => h.sent hbusy hsent }

theorem frozen_openBody {s : State} (h : s.Frozen) (hp : s.phase = .awaitStart) :
    s.openBody.Frozen :=
  { h.leave_wait (.inl hp) (q := .recvBody) nofun with }

theorem frozen_endBody {s : State} (h : s.Frozen) (hp : s.phase = .recvBody) :
    s.endBody.Frozen :=
  h.leave_wait (.inr hp) (q := .validating) nofun

/-- The one write while BUSY that touches the memory stays out of TXBUF. -/
theorem frozen_store {s : State} (h : s.Frozen) (d : Byte) : (s.store d).Frozen := by
  have hpay : (s.store d).payload s.op = s.payload s.op := store_payload h.cfg d s.op
  exact {
    cfg := h.cfg
    frame := fun hbusy => (h.frame hbusy).trans (by rw [← hpay]; rfl)
    txCrc := fun hbusy => (h.txCrc hbusy).trans (by rw [← hpay]; rfl)
    framing := h.framing
    sent := h.sent }

theorem frozen_lineRecvAll {s : State} (h : s.Frozen) (bs : List Byte) :
    (s.lineRecvAll bs).Frozen :=
  reception_keeps (P := State.Frozen)
    (hopen := fun _ hp h => frozen_openBody h hp)
    (hend := fun _ hp h => frozen_endBody h hp)
    (hesc := fun _ _ _ h => { h with })
    (hstore := fun _ d _ h => frozen_store h d) bs h

theorem frozen_countTick {s : State} (h : s.Frozen) (c : ErrCode) : (s.countTick c).Frozen := by
  rcases countTick_cases s c with ⟨_, e⟩ | ⟨_, e⟩ <;> rw [e]
  · exact frozen_of_idle h.cfg rfl
  · exact { h with }

theorem frozen_tick {s : State} (h : s.Frozen) : s.tick.Frozen := by
  rcases tick_cases s with ⟨_, e⟩ | ⟨_, e⟩ | ⟨_, _, e⟩ <;> rw [e]
  · exact frozen_countTick h _
  · exact frozen_countTick h _
  · exact h

/-- The index moves by one, and FRAMING ends where it meets the end of the frame (rule R210). -/
theorem frozen_emit {s : State} (h : s.Frozen) (hp : s.phase = .framing) (b : Byte) :
    (s.lineSend b).advanceTx.Frozen := by
  have hbusy : s.phase ≠ .idle := by rw [hp]; decide
  have hlt : s.txIdx + 1 ≤ s.txFrame.length := h.framing hp
  unfold State.advanceTx
  split
  · next hlast =>
    exact {
      cfg := h.cfg
      frame := fun _ => h.frame hbusy
      txCrc := fun _ => h.txCrc hbusy
      framing := nofun
      sent := fun _ _ => hlast }
  · next hmore =>
    exact {
      cfg := h.cfg
      frame := h.frame
      txCrc := h.txCrc
      framing := fun _ => Nat.lt_of_le_of_ne hlt hmore
      sent := fun _ hnot => absurd hp hnot }

/-- An operand is stored only while IDLE (rules R313 and R316); of the other effects, a command, a
response and delivered bytes touch the phase, the frame or the memory. -/
theorem Effect.frozen {i : Instr} {s t : State} (he : Effect i s t) (h : s.Frozen) : t.Frozen := by
  cases he with
  | dest hp d => exact frozen_of_idle h.cfg hp
  | src hp d => exact frozen_of_idle h.cfg hp
  | reg hp d => exact frozen_of_idle h.cfg hp
  | txLen hp d => exact frozen_of_idle h.cfg hp
  | txbuf hp k _ d => exact frozen_of_idle h.cfg hp
  | issue o _ => exact frozen_issue h o
  | response _ b => exact frozen_response h b
  | line _ bs => exact frozen_lineRecvAll h bs
  | _ => exact { h with }

/-- Settles O52: every effect of an instruction and every agent's step keeps the frame in flight the
frame of the operands. -/
theorem stepKeepsFrozen : Obligations.StepKeepsFrozen := fun _ _ hs hstep =>
  step_keeps
    (hsched := fun _ _ hu h => hu.frozen h)
    (heffect := fun _ _ _ he h => he.frozen h)
    (hutx := fun _ _ h => { h with })
    (herror := fun _ h => { h with })
    (htick := fun _ h => frozen_tick h)
    (hreset := fun _ h => frozen_of_idle h.cfg rfl)
    (hemit := fun _ b hp _ _ h => frozen_emit h hp b) hs hstep

end Sys2Proof.Machine
end

section
/-!
PROOFS. The encodings (spec/30_encoding.md): decoder and encoder are inverse to each other (rules R100
to R111, and R291), a step runs the instruction that is decoded, and the REQ rows are the commands that
generate their request (rules R104 and R105).
-/

namespace Sys2Proof.Machine

/-! ### Fields of the words -/

/-- A BUS word's first byte is W and A (rule R101). -/
theorem busBytes_fields (hi lo : Byte) : busBytes hi.msb (hi.setWidth 7) lo = [hi, lo] := by
  have hcons : BitVec.ofBool hi.msb ++ hi.setWidth 7 = hi := BitVec.cons_msb_setWidth hi
  rw [busBytes, hcons]

theorem txbufAddr_toNat (i : BitVec 5) : (txbufAddr i).toNat = 0x20 + i.toNat := by
  rw [txbufAddr, BitVec.toNat_append, ← Nat.shiftLeft_add_eq_or_of_lt i.isLt]
  rfl

theorem rxbufAddr_toNat (i : BitVec 6) : (rxbufAddr i).toNat = 0x40 + i.toNat := by
  rw [rxbufAddr, BitVec.toNat_append, ← Nat.shiftLeft_add_eq_or_of_lt i.isLt]
  rfl

/-- An address from 0x20 to 0x3F is that of a TXBUF byte (rule R80). -/
theorem txbufAddr_setWidth {a : HostAddr} (hlo : 0x20 ≤ a.toNat) (hhi : a.toNat < 0x40) :
    txbufAddr (a.setWidth 5) = a := by
  apply BitVec.eq_of_toNat_eq
  rw [txbufAddr_toNat, BitVec.toNat_setWidth]
  omega

/-- An address from 0x40 on is that of an RXBUF byte (rule R80). -/
theorem rxbufAddr_setWidth {a : HostAddr} (hlo : 0x40 ≤ a.toNat) :
    rxbufAddr (a.setWidth 6) = a := by
  apply BitVec.eq_of_toNat_eq
  rw [rxbufAddr_toNat, BitVec.toNat_setWidth]
  omega

/-- The line carries the bits of a byte in reverse order (rule R291). -/
theorem getLsbD_lsbFirst (b : Byte) {k : Nat} (hk : k < 8) :
    (lsbFirst b).getLsbD k = b.getLsbD (7 - k) := by
  interval_cases k <;> simp only [lsbFirst, BitVec.getLsbD_append, BitVec.getLsbD_ofBool] <;> rfl

@[simp] theorem lsbFirst_lsbFirst (b : Byte) : lsbFirst (lsbFirst b) = b := by
  apply BitVec.eq_of_getLsbD_eq
  intro k hk
  rw [getLsbD_lsbFirst _ hk, getLsbD_lsbFirst _ (by omega)]
  congr 1
  omega

/-- Above the stop bit stand the data bits; the start bit and the padding are 0 (rule R291). -/
theorem getLsbD_charWord (b : Byte) (k : Nat) :
    (charWord b).getLsbD k = if k = 0 then true else (lsbFirst b).getLsbD (k - 1) := by
  have hpad : ¬ k - 1 < 8 → (lsbFirst b).getLsbD (k - 1) = false :=
    fun h => BitVec.getLsbD_of_ge _ _ (Nat.le_of_not_lt h)
  simp only [charWord, BitVec.getLsbD_append]
  by_cases h0 : k = 0
  · subst h0; rfl
  · have h1 : ¬ k < 1 := by omega
    by_cases h8 : k - 1 < 8 <;> simp [h0, h1, h8, hpad]

theorem charWord_padding (b : Byte) : (charWord b).extractLsb' 10 6 = 0#6 := by
  apply BitVec.eq_of_getLsbD_eq
  intro k _
  rw [BitVec.getLsbD_extractLsb', getLsbD_charWord, if_neg (by omega),
    BitVec.getLsbD_of_ge _ _ (by omega)]
  simp

theorem charWord_startBit (b : Byte) : (charWord b).getLsbD 9 = false := by
  rw [getLsbD_charWord, if_neg (by omega)]
  exact BitVec.getLsbD_of_ge _ _ (Nat.le_refl 8)

theorem charWord_data (b : Byte) : (charWord b).extractLsb' 1 8 = lsbFirst b := by
  apply BitVec.eq_of_getLsbD_eq
  intro k hk
  rw [BitVec.getLsbD_extractLsb', getLsbD_charWord, if_neg (by omega), Nat.add_sub_cancel_left]
  simp [hk]

theorem charWord_stopBit (b : Byte) : (charWord b).getLsbD 0 = true := by
  rw [getLsbD_charWord, if_pos rfl]

theorem charBytes_eq (b : Byte) : charBytes b = [hiByte (charWord b), loByte (charWord b)] := rfl

theorem ofBool_getLsbD {n : Nat} (w : BitVec n) (k : Nat) :
    BitVec.ofBool (w.getLsbD k) = w.extractLsb' k 1 := by
  ext i hi
  obtain rfl : i = 0 := by omega
  simp

/-- The fields of a character word: padding, start bit, data bits, stop bit. -/
theorem charWord_fields (w : Word16) :
    (w.extractLsb' 10 6 ++ BitVec.ofBool (w.getLsbD 9)) ++ w.extractLsb' 1 8
      ++ BitVec.ofBool (w.getLsbD 0) = w := by
  rw [ofBool_getLsbD, ofBool_getLsbD,
    BitVec.extractLsb'_append_extractLsb'_eq_extractLsb' (start₁ := 9) (len₁ := 1) (by rfl),
    BitVec.extractLsb'_append_extractLsb'_eq_extractLsb' (start₁ := 1) (len₁ := 8) (by rfl),
    BitVec.extractLsb'_append_extractLsb'_eq_extractLsb' (start₁ := 0) (len₁ := 1) (by rfl)]
  exact BitVec.extractLsb'_eq_self

/-! ### The rows of lowest priority: the words no row above them has -/

theorem wf_cmdRsv {op : BitVec 2} {rsv : BitVec 6} :
    (Instr.cmdRsv op rsv).wf = true ↔ 0x04 ≤ (rsv ++ op).toNat := by
  have hop := op.isLt
  have happ : (rsv ++ op).toNat = 4 * rsv.toNat + op.toNat := by
    rw [BitVec.toNat_append, ← Nat.shiftLeft_add_eq_or_of_lt op.isLt, Nat.shiftLeft_eq]
    omega
  have hne : rsv ≠ 0#6 ↔ rsv.toNat ≠ 0 := not_congr BitVec.toNat_inj.symm
  rw [Instr.wf, bne_iff_ne, hne, happ]
  omega

theorem wf_wrCmdRsv {d : Byte} : (Instr.wrCmdRsv d).wf = true ↔
    d.toNat ≠ 0x00 ∧ d.toNat ≠ 0x01 ∧ d.toNat ≠ 0x02 := by
  simp only [Instr.wf, Bool.and_eq_true, bne_iff_ne, ne_eq, ← BitVec.toNat_inj, and_assoc]
  rfl

theorem wf_rspReserved {t : Byte} : (Instr.rspReserved t).wf = true ↔
    t.toNat ≠ 0x00 ∧ t.toNat ≠ 0x01 ∧ t.toNat ≠ 0x02 ∧ t.toNat ≠ 0x03 ∧ t.toNat ≠ 0x08 := by
  simp only [Instr.wf, Bool.and_eq_true, bne_iff_ne, ne_eq, ← BitVec.toNat_inj, and_assoc]
  rfl

theorem wf_escNoncanon {y : Byte} : (Instr.escNoncanon y).wf = true ↔
    y.toNat ≠ 0x4A ∧ y.toNat ≠ 0x4D ∧ y.toNat ≠ 0x9E ∧ y ≠ 0x0A := by
  simp only [Instr.wf, Bool.and_eq_true, bne_iff_ne, ne_eq, ← BitVec.toNat_inj, and_assoc]
  rfl

theorem wf_literal {b : Byte} : (Instr.literal b).wf = true ↔ b ≠ 0x0A ∧ b ≠ 0x0D ∧ b ≠ 0x5E := by
  simp only [Instr.wf, Bool.and_eq_true, bne_iff_ne, and_assoc]
  rfl

/-! ### The decoders on the words of their rows -/

/-- Rule R103: every CMD byte from 0x04 on is reserved. -/
theorem decodeCmd_reserved {d : Byte} (h : 0x04 ≤ d.toNat) :
    decodeCmd d = .cmdRsv (d.setWidth 2) (d.extractLsb' 2 6) := by
  unfold decodeCmd
  split
  case h_5 => rfl
  all_goals omega

/-- Rule R310: the reads from 0x20 on are those of the buffers. -/
theorem decodeBusRead_buffer {a : HostAddr} (h : 0x20 ≤ a.toNat) : decodeBusRead a =
    if a.toNat < 0x40 then .rdTxbuf (a.setWidth 5) else .rdRxbuf (a.setWidth 6) := by
  unfold decodeBusRead
  split
  case h_33 => rfl
  all_goals omega

/-- Rule R311: the writes from 0x20 on are those of the buffers. -/
theorem decodeBusWrite_buffer {a : HostAddr} (d : Byte) (h : 0x20 ≤ a.toNat) : decodeBusWrite a d =
    if a.toNat < 0x40 then .wrTxbuf (a.setWidth 5) d else .wrRxbuf (a.setWidth 6) d := by
  unfold decodeBusWrite
  split
  case h_33 => rfl
  all_goals omega

theorem decodeBusRead_txbufAddr (i : BitVec 5) : decodeBusRead (txbufAddr i) = .rdTxbuf i := by
  have ha := txbufAddr_toNat i
  rw [decodeBusRead_buffer (by omega), if_pos (by omega), txbufAddr,
    BitVec.setWidth_append_eq_right]

theorem decodeBusRead_rxbufAddr (i : BitVec 6) : decodeBusRead (rxbufAddr i) = .rdRxbuf i := by
  have ha := rxbufAddr_toNat i
  rw [decodeBusRead_buffer (by omega), if_neg (by omega), rxbufAddr,
    BitVec.setWidth_append_eq_right]

theorem decodeBusWrite_txbufAddr (i : BitVec 5) (d : Byte) :
    decodeBusWrite (txbufAddr i) d = .wrTxbuf i d := by
  have ha := txbufAddr_toNat i
  rw [decodeBusWrite_buffer d (by omega), if_pos (by omega), txbufAddr,
    BitVec.setWidth_append_eq_right]

theorem decodeBusWrite_rxbufAddr (i : BitVec 6) (d : Byte) :
    decodeBusWrite (rxbufAddr i) d = .wrRxbuf i d := by
  have ha := rxbufAddr_toNat i
  rw [decodeBusWrite_buffer d (by omega), if_neg (by omega), rxbufAddr,
    BitVec.setWidth_append_eq_right]

/-- Rule R204. -/
theorem decodeBusCommand_reserved {d : Byte} (h : (Instr.wrCmdRsv d).wf = true) :
    decodeBusCommand d = .wrCmdRsv d := by
  obtain ⟨h0, h1, h2⟩ := wf_wrCmdRsv.1 h
  unfold decodeBusCommand
  split
  case h_4 => rfl
  all_goals contradiction

/-- Rule R107. -/
theorem decodeRsp_reserved {t : Byte} (h : (Instr.rspReserved t).wf = true) :
    decodeRsp t = .rspReserved t := by
  obtain ⟨h0, h1, h2, h3, h8⟩ := wf_rspReserved.1 h
  unfold decodeRsp
  split
  case h_6 => rfl
  all_goals contradiction

/-- Rule R110. -/
theorem decodePair_noncanonical {y : Byte} (h : (Instr.escNoncanon y).wf = true) :
    decodePair y = .escNoncanon y := by
  obtain ⟨h4A, h4D, h9E, _⟩ := wf_escNoncanon.1 h
  unfold decodePair
  split
  case h_4 => rfl
  all_goals contradiction

/-- Rule R291: the levels of a character are read as its byte. -/
theorem decodeChar_charWord (b : Byte) : decodeChar (charWord b) = .ok (.char b) := by
  rw [decodeChar, charWord_padding, charWord_startBit, charWord_stopBit, charWord_data,
    lsbFirst_lsbFirst]
  rfl

theorem decode_busRead (a : HostAddr) (rest : List Byte) :
    decode .bus (busBytes false a 0x00 ++ rest) = .ok (decodeBusRead a, rest) := by
  have hw : (BitVec.ofBool false ++ a).msb = false := BitVec.msb_append
  have ha : (BitVec.ofBool false ++ a).setWidth 7 = a := BitVec.setWidth_append_eq_right
  change (decodeBus (BitVec.ofBool false ++ a) 0x00).map (·, rest) = _
  rw [decodeBus, hw, ha]
  rfl

theorem decode_busWrite (a : HostAddr) (d : Byte) (rest : List Byte) :
    decode .bus (busBytes true a d ++ rest) = .ok (decodeBusWrite a d, rest) := by
  have hw : (BitVec.ofBool true ++ a).msb = true := BitVec.msb_append
  have ha : (BitVec.ofBool true ++ a).setWidth 7 = a := BitVec.setWidth_append_eq_right
  change (decodeBus (BitVec.ofBool true ++ a) d).map (·, rest) = _
  rw [decodeBus, hw, ha]
  rfl

theorem decode_charBytes (b : Byte) (rest : List Byte) :
    decode .char (charBytes b ++ rest) = .ok (.char b, rest) := by
  have hw : hiByte (charWord b) ++ loByte (charWord b) = charWord b := pair_hi_lo (charWord b)
  change (decodeChar (hiByte (charWord b) ++ loByte (charWord b))).map (·, rest) = _
  rw [hw, decodeChar_charWord]
  rfl

theorem decodeSym_pair {y : Byte} (h : y ≠ 0x0A) (rest : List Byte) :
    decodeSym (0x5E :: y :: rest) = .ok (decodePair y, rest) := if_neg h

theorem decodeSym_literal {b : Byte} (h : (Instr.literal b).wf = true) (rest : List Byte) :
    decodeSym (b :: rest) = .ok (.literal b, rest) := by
  obtain ⟨hA, hD, hE⟩ := wf_literal.1 h
  simp only [decodeSym, if_neg hD, if_neg hA, if_neg hE]

/-! ### What is encoded is decoded -/

/-- Settles O36: a word whose address and code are written out evaluates; the rows with a reserved value,
a buffer index or a character go by the laws of their fields. -/
theorem decodeOfEncode : Obligations.DecodeOfEncode := by
  intro i rest hwf
  cases i with
  | cmdRsv op rsv =>
    change Except.ok (decodeCmd (rsv ++ op), rest) = _
    rw [decodeCmd_reserved (wf_cmdRsv.1 hwf), BitVec.setWidth_append_eq_right,
      BitVec.extractLsb'_append_eq_left]
  | wrCmdRsv d =>
    rw [encode, Instr.format, decode_busWrite, ← decodeBusCommand_reserved hwf]
    rfl
  | rdTxbuf i => rw [encode, Instr.format, decode_busRead, decodeBusRead_txbufAddr]
  | wrTxbuf i d => rw [encode, Instr.format, decode_busWrite, decodeBusWrite_txbufAddr]
  | rdRxbuf i => rw [encode, Instr.format, decode_busRead, decodeBusRead_rxbufAddr]
  | wrRxbuf i d => rw [encode, Instr.format, decode_busWrite, decodeBusWrite_rxbufAddr]
  | rspReserved t =>
    change Except.ok (decodeRsp t, rest) = _
    rw [decodeRsp_reserved hwf]
  | escNoncanon y =>
    obtain ⟨_, _, _, h0A⟩ := wf_escNoncanon.1 hwf
    have hpair := decodeSym_pair h0A rest
    rwa [decodePair_noncanonical hwf] at hpair
  | literal b => exact decodeSym_literal hwf rest
  | char b => exact decode_charBytes b rest
  | _ => rfl

/-! ### What is decoded is encoded -/

/-- The instruction i is the row of the format f that the word w belongs to. -/
structure RowOf (f : Format) (w : List Byte) (i : Instr) : Prop where
  wf : i.wf = true
  format : i.format = f
  encode : encode i = w

theorem decodeCmd_rowOf (d : Byte) : RowOf .cmd [d] (decodeCmd d) := by
  by_cases h : 0x04 ≤ d.toNat
  · have hd : d.extractLsb' 2 6 ++ d.setWidth 2 = d := by
      rw [BitVec.setWidth_eq_extractLsb' (by omega),
        BitVec.extractLsb'_append_extractLsb'_eq_extractLsb' (by rfl)]
      exact BitVec.extractLsb'_eq_self
    rw [decodeCmd_reserved h]
    exact ⟨wf_cmdRsv.2 (by rwa [hd]), rfl, by rw [encode, hd]⟩
  · unfold decodeCmd
    split
    case h_5 => simp only [imp_false] at *; omega
    all_goals
      rename_i hd
      obtain ⟨_, rfl⟩ := BitVec.toNat_eq_nat.1 hd
      exact ⟨rfl, rfl, rfl⟩

theorem decodeBusCommand_rowOf (d : Byte) :
    RowOf .bus (busBytes true 0x01 d) (decodeBusCommand d) := by
  unfold decodeBusCommand
  split
  case h_4 h0 h1 h2 => exact ⟨wf_wrCmdRsv.2 ⟨h0, h1, h2⟩, rfl, rfl⟩
  all_goals
    rename_i hd
    obtain ⟨_, rfl⟩ := BitVec.toNat_eq_nat.1 hd
    exact ⟨rfl, rfl, rfl⟩

theorem decodeBusRead_rowOf (a : HostAddr) :
    RowOf .bus (busBytes false a 0x00) (decodeBusRead a) := by
  by_cases h : 0x20 ≤ a.toNat
  · rw [decodeBusRead_buffer h]
    split
    case isTrue hlt => exact ⟨rfl, rfl, by rw [encode, txbufAddr_setWidth h hlt]⟩
    case isFalse hge => exact ⟨rfl, rfl, by rw [encode, rxbufAddr_setWidth (Nat.le_of_not_lt hge)]⟩
  · unfold decodeBusRead
    split
    case h_33 => simp only [imp_false] at *; omega
    all_goals
      rename_i ha
      obtain ⟨_, rfl⟩ := BitVec.toNat_eq_nat.1 ha
      exact ⟨rfl, rfl, rfl⟩

theorem decodeBusWrite_rowOf (a : HostAddr) (d : Byte) :
    RowOf .bus (busBytes true a d) (decodeBusWrite a d) := by
  by_cases h : 0x20 ≤ a.toNat
  · rw [decodeBusWrite_buffer d h]
    split
    case isTrue hlt => exact ⟨rfl, rfl, by rw [encode, txbufAddr_setWidth h hlt]⟩
    case isFalse hge => exact ⟨rfl, rfl, by rw [encode, rxbufAddr_setWidth (Nat.le_of_not_lt hge)]⟩
  · unfold decodeBusWrite
    split
    case h_33 => simp only [imp_false] at *; omega
    case h_2 ha =>
      obtain ⟨_, rfl⟩ := BitVec.toNat_eq_nat.1 ha
      exact decodeBusCommand_rowOf d
    all_goals
      rename_i ha
      obtain ⟨_, rfl⟩ := BitVec.toNat_eq_nat.1 ha
      exact ⟨rfl, rfl, rfl⟩

theorem decodeBus_rowOf {hi lo : Byte} {i : Instr} (h : decodeBus hi lo = .ok i) :
    RowOf .bus [hi, lo] i := by
  rw [← busBytes_fields hi lo]
  unfold decodeBus at h
  split at h
  case isTrue hw =>
    cases h
    rw [hw]
    exact decodeBusWrite_rowOf ..
  case isFalse hw =>
    split at h
    case isTrue hlo =>
      cases h
      rw [Bool.eq_false_of_not_eq_true hw, hlo]
      exact decodeBusRead_rowOf _
    case isFalse => cases h

theorem decodeReq_rowOf {c : Byte} {i : Instr} (h : decodeReq c = .ok i) : RowOf .req [c] i := by
  unfold decodeReq at h
  split at h
  case isTrue hc => cases h; exact ⟨rfl, rfl, by rw [hc]; rfl⟩
  case isFalse =>
    split at h
    case isTrue hc => cases h; exact ⟨rfl, rfl, by rw [hc]; rfl⟩
    case isFalse => cases h

theorem decodeRsp_rowOf (t : Byte) : RowOf .rsp [t] (decodeRsp t) := by
  unfold decodeRsp
  split
  case h_6 h0 h1 h2 h3 h8 => exact ⟨wf_rspReserved.2 ⟨h0, h1, h2, h3, h8⟩, rfl, rfl⟩
  all_goals
    rename_i ht
    obtain ⟨_, rfl⟩ := BitVec.toNat_eq_nat.1 ht
    exact ⟨rfl, rfl, rfl⟩

theorem decodePair_rowOf {y : Byte} (hy : y ≠ 0x0A) : RowOf .sym [0x5E, y] (decodePair y) := by
  unfold decodePair
  split
  case h_4 h4A h4D h9E => exact ⟨wf_escNoncanon.2 ⟨h4A, h4D, h9E, hy⟩, rfl, rfl⟩
  all_goals
    rename_i h
    obtain ⟨_, rfl⟩ := BitVec.toNat_eq_nat.1 h
    exact ⟨rfl, rfl, rfl⟩

theorem decodeChar_rowOf {hi lo : Byte} {i : Instr} (h : decodeChar (hi ++ lo) = .ok i) :
    RowOf .char [hi, lo] i := by
  unfold decodeChar at h
  split at h
  case isTrue => cases h
  case isFalse hpad =>
    split at h
    case isTrue => cases h
    case isFalse hstart =>
      split at h
      case isFalse => cases h
      case isTrue hstop =>
        cases h
        have hw := charWord_fields (pair hi lo)
        rw [pair, not_not.1 hpad, Bool.eq_false_of_not_eq_true hstart, hstop] at hw
        have hchar : charWord (lsbFirst ((hi ++ lo).extractLsb' 1 8)) = pair hi lo := by
          rw [charWord, lsbFirst_lsbFirst]
          exact hw
        exact ⟨rfl, rfl, by rw [encode, charBytes_eq, hchar, hiByte_pair, loByte_pair]⟩

/-- Rules R110 and R111: a symbol, or an ESC that starts none (notes/assumptions/22). -/
theorem decodeSym_rowOf {bs rest : List Byte} {i : Instr} (h : decodeSym bs = .ok (i, rest)) :
    (∃ w, bs = w ++ rest ∧ RowOf .sym w i) ∨ (i = .char 0x5E ∧ bs = 0x5E :: rest) := by
  cases bs with
  | nil => cases h
  | cons b bs =>
    by_cases hD : b = 0x0D
    · subst hD; cases h; exact .inl ⟨[0x0D], rfl, rfl, rfl, rfl⟩
    by_cases hA : b = 0x0A
    · subst hA; cases h; exact .inl ⟨[0x0A], rfl, rfl, rfl, rfl⟩
    by_cases hE : b = 0x5E
    · subst hE
      cases bs with
      | nil => cases h; exact .inr ⟨rfl, rfl⟩
      | cons y bs =>
        by_cases hy : y = 0x0A
        · subst hy; cases h; exact .inr ⟨rfl, rfl⟩
        · rw [decodeSym_pair hy] at h
          cases h
          exact .inl ⟨[0x5E, y], rfl, decodePair_rowOf hy⟩
    · have hwf := wf_literal.2 ⟨hA, hD, hE⟩
      rw [decodeSym_literal hwf] at h
      cases h
      exact .inl ⟨[b], rfl, hwf, rfl, rfl⟩

/-- What a decoder of one word answers goes with the bytes after the word. -/
theorem map_ok {x : Except DecodeError Instr} {bs rest : List Byte} {i : Instr}
    (h : x.map (·, bs) = .ok (i, rest)) : x = .ok i ∧ bs = rest := by
  cases x with
  | error e => cases h
  | ok j => cases h; exact ⟨rfl, rfl⟩

/-- The decoder reads the word of a row of its format; the exception is an ESC among the symbols
that starts none. -/
theorem decode_rowOf {f : Format} {bs rest : List Byte} {i : Instr}
    (h : decode f bs = .ok (i, rest)) :
    (∃ w, bs = w ++ rest ∧ RowOf f w i) ∨ (f = .sym ∧ i = .char 0x5E ∧ bs = 0x5E :: rest) := by
  unfold decode at h
  split at h
  case h_1 d _ => cases h; exact .inl ⟨[d], rfl, decodeCmd_rowOf d⟩
  case h_2 hi lo _ =>
    obtain ⟨hd, rfl⟩ := map_ok h
    exact .inl ⟨[hi, lo], rfl, decodeBus_rowOf hd⟩
  case h_3 c _ =>
    obtain ⟨hd, rfl⟩ := map_ok h
    exact .inl ⟨[c], rfl, decodeReq_rowOf hd⟩
  case h_4 t _ => cases h; exact .inl ⟨[t], rfl, decodeRsp_rowOf t⟩
  case h_5 =>
    rcases decodeSym_rowOf h with hrow | hesc
    · exact .inl hrow
    · exact .inr ⟨rfl, hesc⟩
  case h_6 hi lo _ =>
    obtain ⟨hd, rfl⟩ := map_ok h
    exact .inl ⟨[hi, lo], rfl, decodeChar_rowOf hd⟩
  case h_7 => cases h

/-- Settles O37: the word read is that of a row. -/
theorem encodeOfDecode : Obligations.EncodeOfDecode := by
  intro f bs rest i h
  rcases decode_rowOf h with ⟨w, hbs, hrow⟩ | ⟨hf, hi, hbs⟩
  · exact ⟨hrow.wf, .inl ⟨hrow.format, by rw [hrow.encode, hbs]⟩⟩
  · exact ⟨by rw [hi]; rfl, .inr ⟨hf, hi, hbs⟩⟩

/-- Settles O38: the decoder evaluates on each word, in the format chosen for it. -/
theorem tableWordsDecodeToTheirRows : Obligations.TableWordsDecodeToTheirRows :=
  ⟨rfl, rfl, rfl, rfl, rfl, rfl, rfl, rfl, rfl, rfl, rfl, rfl⟩

/-! ### A step runs the instruction decoded -/

/-- A step whose fetch finds an instruction runs it. -/
theorem State.Fetches.step_eq {s u : State} {i : Instr} (h : s.Fetches i u) :
    step s = exec i u := by
  have hf : fetch s = .instr i u := h
  unfold step
  rw [hf]

theorem fetch_of_agenda_coded {s : State} {f : Format} {bs : List Byte} {es : List Event}
    (h : s.agenda = .coded f bs :: es) : fetch s = fetchCoded f bs (s.setAgenda es) := by
  simp only [fetch, h]

/-- Bytes that decode are fetched as their instruction; a response type is refused from outside
(notes/assumptions/11). -/
theorem fetchCoded_ok {f : Format} {bs rest : List Byte} {i : Instr} (hf : f ≠ .rsp)
    (h : decode f bs = .ok (i, rest)) (s : State) :
    fetchCoded f bs s = .instr i (s.putBack f rest) := by
  unfold fetchCoded
  split
  case h_1 => exact absurd rfl hf
  case h_2 => rw [h]

theorem putBack_eq (s : State) (f : Format) (rest : List Byte) : s.putBack f rest =
    s.setAgenda (if rest = [] then s.agenda else .coded f rest :: s.agenda) := by
  cases rest <;> rfl

/-- A host access is the word of its direction, address and data (rule R101). -/
theorem decode_accessBytes (x : Access) :
    ∃ i, RowOf .bus (accessBytes x) i ∧ decode .bus (accessBytes x) = .ok (i, []) := by
  cases x with
  | read a => exact ⟨_, decodeBusRead_rowOf a, decode_busRead a []⟩
  | write a d => exact ⟨_, decodeBusWrite_rowOf a d, decode_busWrite a d []⟩

/-- Settles O24: each of the four events is fetched as the instruction decoded. -/
theorem stepRunsTheDecodedInstruction : Obligations.StepRunsTheDecodedInstruction := by
  intro s es
  refine ⟨?coded, ?host, ?line, ?seq⟩
  case coded =>
    intro f bs i rest ha hf hd
    have hfetch : s.Fetches i ((s.setAgenda es).putBack f rest) :=
      (fetch_of_agenda_coded ha).trans (fetchCoded_ok hf hd _)
    rw [hfetch.step_eq, putBack_eq]
    rfl
  case host =>
    intro x ha
    obtain ⟨i, hrow, hd⟩ := decode_accessBytes x
    have hfetch : s.Fetches i (s.setAgenda es) :=
      (fetch_of_agenda_move ha).trans (fetchCoded_ok (by decide) hd _)
    exact ⟨i, hrow.wf, hrow.format, hd, hfetch.step_eq⟩
  case line =>
    intro b ha
    have hfetch : s.Fetches (.char b) (s.setAgenda es) :=
      (fetch_of_agenda_move ha).trans (fetchCoded_ok (by decide) (decode_charBytes b []) _)
    exact hfetch.step_eq
  case seq =>
    intro ha hp
    have hfetch : s.Fetches (decodeRsp (s.rxbufAt 2)) (s.setAgenda es) := by
      have hp' : (s.setAgenda es).phase = .validating := hp
      refine (fetch_of_agenda_move ha).trans ?_
      simp only [fetchMove, fetchSeq, hp']
      rfl
    exact hfetch.step_eq

/-! ### The REQ rows -/

theorem loByte_eq_extract (c : Word16) : loByte c = c.extractLsb' 0 8 :=
  BitVec.setWidth_eq_extractLsb' (by omega)

/-- Rules R207 and R208: acceptance and framing, written out. -/
theorem startFrame_accept_eq (s : State) (o : Op) (code : Byte) (payload : List Byte) :
    (s.accept o).startFrame code payload = requestState s o code payload := by
  simp only [State.startFrame, requestBody, crcTrailer, loByte_eq_extract]
  rfl

/-- Rules R206 and R345: acceptance and completion with SRC_RANGE, written out. -/
theorem complete_accept_eq {s : State} (hp : s.phase = .idle) (o : Op) :
    (s.accept o).complete .srcRange = rangeErrorState s o := by
  rw [rangeErrorState, hp]
  rfl

/-- The payload of a WRITE that fits TXBUF is read at TXBUF's addresses (rules R40 and R202). -/
theorem writePayload_eq {s : State} (h : s.txLen.toNat ≤ s.cfg.txbuf) :
    s.writePayload = (List.range s.txLen.toNat).map fun i => s.mem.read (0x20 + i) :=
  List.map_congr_left fun _ hi => if_pos ((List.mem_range.1 hi).trans_le h)

theorem exec_reqRead (s : State) : exec .reqRead s = .next (s.issue .read) := rfl

theorem exec_reqWrite (s : State) : exec .reqWrite s = .next (s.issue .write) := rfl

/-- Settles O14: each REQ row issues its command, which frames, is rejected, or is out of range. -/
theorem requestRowsGenerateTheirRequest : Obligations.RequestRowsGenerateTheirRequest := by
  refine ⟨?framed, ?rejected, ?range⟩
  case framed =>
    intro s hp hsrc hlen
    rw [exec_reqRead, exec_reqWrite, issue_frame hp hsrc, issue_frame hp hsrc,
      startFrame_accept_eq, startFrame_accept_eq, ← writePayload_eq hlen]
    exact ⟨rfl, rfl⟩
  case rejected =>
    intro s hp
    rw [exec_reqRead, exec_reqWrite, issue_busy hp, issue_busy hp]
    exact ⟨rfl, rfl⟩
  case range =>
    intro s hp hsrc
    rw [exec_reqRead, exec_reqWrite, issue_range hp hsrc, issue_range hp hsrc,
      complete_accept_eq hp, complete_accept_eq hp]
    exact ⟨rfl, rfl⟩

end Sys2Proof.Machine
end

section
/-!
PROOFS. The byte stuffing (spec/40_escape.md rules R140 to R148): what the two forms of an escaped byte
are, and from them the round trip, the form and the length of an escaped sequence; and what each symbol
stores in a body (spec/43_transport_rx.md rules R243 to R245).
-/

namespace Sys2Proof.Machine

/-! ### One escaped byte -/

/-- Rule R140: the second byte of a canonical pair. -/
theorem reserved_add_eq {b : Byte} (h : isReserved b = true) :
    b + 0x40 = 0x4A ∨ b + 0x40 = 0x4D ∨ b + 0x40 = 0x9E := by
  rcases (isReserved_iff b).1 h with rfl | rfl | rfl
  · exact .inl rfl
  · exact .inr (.inl rfl)
  · exact .inr (.inr rfl)

theorem not_isReserved_iff (b : Byte) :
    isReserved b = false ↔ b ≠ 0x0A ∧ b ≠ 0x0D ∧ b ≠ 0x5E := by
  rw [← Bool.not_eq_true, isReserved_iff, not_or, not_or]

/-- Rules R140 and R141: a byte is escaped as a canonical pair, or stands for itself. -/
theorem escByte_cases (b : Byte) :
    (∃ y, escByte b = [0x5E, y] ∧ (y = 0x4A ∨ y = 0x4D ∨ y = 0x9E)) ∨
    (escByte b = [b] ∧ b ≠ 0x0A ∧ b ≠ 0x0D ∧ b ≠ 0x5E) := by
  cases h : isReserved b with
  | true => exact .inl ⟨b + 0x40, escByte_reserved h, reserved_add_eq h⟩
  | false => exact .inr ⟨escByte_literal h, (not_isReserved_iff b).1 h⟩

/-! ### The round trip -/

/-- The decoder undoes one escaped byte and is where it was. -/
theorem unescapeFrom_escByte (b : Byte) : unescapeFrom false (escByte b) = ([b], false) := by
  cases h : isReserved b with
  | true =>
    rw [escByte_reserved h, unescapeFrom_cons, unescapeStep_esc, unescapeFrom_cons,
      unescapeStep_pending, BitVec.add_sub_cancel]
    rfl
  | false =>
    obtain ⟨_, _, hesc⟩ := (not_isReserved_iff b).1 h
    rw [escByte_literal h]
    simp [unescapeFrom_cons, unescapeStep_literal hesc]

/-- Rule R147. -/
theorem unescape_escape (s : List Byte) : unescape (escape s) = (s, false) := by
  unfold unescape
  induction s with
  | nil => rfl
  | cons b s ih => simp [unescapeFrom_append, unescapeFrom_escByte, ih]

/-- Rule R148: the encoder has a left inverse. -/
theorem escape_injective : Function.Injective escape := fun s t h => by
  have hdec : (s, false) = (t, false) := by rw [← unescape_escape s, h, unescape_escape t]
  exact congrArg Prod.fst hdec

/-- Settles O39: the decoder is a left inverse of the encoder, by induction on the sequence. -/
theorem unescapeOfEscape : Obligations.UnescapeOfEscape :=
  ⟨unescape_escape, fun _ _ h => escape_injective h⟩

/-! ### The form of an escaped sequence -/

/-- No escaped byte holds a delimiter. -/
theorem delimiter_not_mem_escByte {d : Byte} (hd : d = 0x0A ∨ d = 0x0D) (b : Byte) :
    d ∉ escByte b := by
  rcases escByte_cases b with ⟨y, e, hy⟩ | ⟨e, hlf, hcr, _⟩ <;> rw [e]
  · rcases hd with rfl | rfl <;> rcases hy with rfl | rfl | rfl <;> decide
  · rcases hd with rfl | rfl
    · simpa using hlf.symm
    · simpa using hcr.symm

theorem delimiter_not_mem_escape {d : Byte} (hd : d = 0x0A ∨ d = 0x0D) (s : List Byte) :
    d ∉ escape s := fun h => by
  obtain ⟨b, _, hb⟩ := List.mem_flatMap.1 h
  exact delimiter_not_mem_escByte hd b hb

/-- In an escaped sequence an ESC has a second byte of a canonical pair after it: an ESC is the first
byte of what the byte it stands for is escaped as, since no second byte is an ESC. -/
theorem esc_followed_in_escape (s : List Byte) (k : Nat) (h : (escape s)[k]? = some 0x5E) :
    ∃ y, (escape s)[k + 1]? = some y ∧ (y = 0x4A ∨ y = 0x4D ∨ y = 0x9E) := by
  induction s generalizing k with
  | nil => simp at h
  | cons b s ih =>
    rw [escape_cons] at h ⊢
    rcases escByte_cases b with ⟨y, e, hy⟩ | ⟨e, _, _, hesc⟩ <;> rw [e] at h ⊢
    · match k with
      | 0 => exact ⟨y, rfl, hy⟩
      | 1 =>
        have hy' : y = 0x5E := Option.some.inj h
        subst hy'
        exact absurd hy (by decide)
      | k + 2 => exact ih k h
    · match k with
      | 0 => exact absurd (Option.some.inj h) hesc
      | k + 1 => exact ih k h

/-- Settles O40: byte by byte for the delimiters, by induction on the sequence for the pairs. -/
theorem escapedSequencesAreDelimiterFree : Obligations.EscapedSequencesAreDelimiterFree := by
  intro s
  refine ⟨delimiter_not_mem_escape (.inl rfl) s, delimiter_not_mem_escape (.inr rfl) s, ?pairs⟩
  intro k h
  obtain ⟨y, hnext, rfl | rfl | rfl⟩ := esc_followed_in_escape s k h
  · exact .inl hnext
  · exact .inr (.inl hnext)
  · exact .inr (.inr hnext)

/-! ### The length of an escaped sequence -/

theorem escByte_length (b : Byte) :
    (escByte b).length = 1 + if isReserved b = true then 1 else 0 := by
  cases h : isReserved b with
  | true => rw [escByte_reserved h]; rfl
  | false => rw [escByte_literal h]; rfl

/-- Rule R145: each reserved byte adds one byte. -/
theorem escape_length (s : List Byte) : (escape s).length = s.length + s.countP isReserved := by
  induction s with
  | nil => rfl
  | cons b s ih =>
    rw [escape_cons, List.length_append, escByte_length, ih, List.length_cons, List.countP_cons]
    omega

/-- Settles O41: at most every byte is reserved. -/
theorem escapedLength : Obligations.EscapedLength := by
  intro s
  have hcount : s.countP isReserved ≤ s.length := List.countP_le_length
  have hlen := escape_length s
  exact ⟨hlen, by omega⟩

/-! ### One byte of a body -/

/-- Inside a body every byte but END is a body byte (rule R243). -/
theorem lineRecv_body {s : State} {b : Byte} (hp : s.phase = .recvBody) (hb : b ≠ endByte) :
    s.lineRecv b = s.bodyByte b := by
  simp only [State.lineRecv, hp, if_neg hb]

/-- Rule R245 in the model's words and written out. -/
theorem store_setRxEsc_eq (s : State) (d : Byte) : (s.setRxEsc false).store d = storedState s d := rfl

/-- After an ESC a body byte is a second byte, whatever it is. -/
theorem lineRecv_pending {s : State} {b : Byte} (hp : s.phase = .recvBody) (he : s.rxEsc = true)
    (hb : b ≠ endByte) : s.lineRecv b = storedState s (b - 0x40) := by
  rw [lineRecv_body hp hb]
  simp only [State.bodyByte, he, unescapeStep_pending, store_setRxEsc_eq]

/-- With no ESC pending a body byte other than ESC stands for itself. -/
theorem lineRecv_plain {s : State} {b : Byte} (hp : s.phase = .recvBody) (he : s.rxEsc = false)
    (hb : b ≠ endByte) (hesc : b ≠ 0x5E) : s.lineRecv b = storedState s b := by
  rw [lineRecv_body hp hb]
  simp only [State.bodyByte, he, unescapeStep_literal hesc, store_setRxEsc_eq]

/-- With no ESC pending an ESC stores nothing and waits for its second byte. -/
theorem lineRecv_esc {s : State} (hp : s.phase = .recvBody) (he : s.rxEsc = false) :
    s.lineRecv 0x5E = s.setRxEsc true := by
  rw [lineRecv_body hp (by decide)]
  simp only [State.bodyByte, he, unescapeStep_esc]

/-! ### A pair in a body -/

/-- With no ESC pending a pair stores its second byte minus 0x40. -/
theorem lineRecvAll_pair {s : State} {y : Byte} (hp : s.phase = .recvBody) (he : s.rxEsc = false)
    (hy : y ≠ endByte) : s.lineRecvAll [0x5E, y] = storedState s (y - 0x40) := by
  rw [lineRecvAll_cons, lineRecvAll_cons, lineRecvAll_nil, lineRecv_esc hp he]
  exact lineRecv_pending hp rfl hy

/-- After an ESC the first byte of a pair is a second byte, which stores 0x1E; the second byte of the
pair then stands alone. -/
theorem lineRecvAll_pair_pending {s : State} {y : Byte} (hp : s.phase = .recvBody)
    (he : s.rxEsc = true) (hy : y ≠ endByte) : s.lineRecvAll [0x5E, y] =
      if y = 0x5E then { storedState s 0x1E with rxEsc := true }
      else storedState (storedState s 0x1E) y := by
  have hfirst : s.lineRecv 0x5E = storedState s 0x1E := lineRecv_pending hp he (by decide)
  have hp' : (storedState s 0x1E).phase = .recvBody := hp
  rw [lineRecvAll_cons, lineRecvAll_cons, lineRecvAll_nil, hfirst]
  split
  next h => subst h; exact lineRecv_esc hp' rfl
  next h => exact lineRecv_plain hp' rfl hy h

/-! ### The symbols in a body -/

theorem exec_symStart (s : State) : exec .symStart s = .next (s.lineRecv 0x0D) := rfl

theorem exec_literal (b : Byte) (s : State) : exec (.literal b) s = .next (s.lineRecv b) := rfl

theorem exec_escNoncanon (y : Byte) (s : State) :
    exec (.escNoncanon y) s = .next (s.lineRecvAll [0x5E, y]) := rfl

/-- Rule R140: the canonical pairs. -/
theorem exec_canonicalPair (s : State) :
    exec .esc0A s = .next (s.lineRecvAll [0x5E, 0x4A]) ∧
    exec .esc0D s = .next (s.lineRecvAll [0x5E, 0x4D]) ∧
    exec .esc5E s = .next (s.lineRecvAll [0x5E, 0x9E]) := ⟨rfl, rfl, rfl⟩

theorem escNoncanon_ne_endByte {y : Byte} (h : (Instr.escNoncanon y).wf = true) : y ≠ endByte := by
  obtain ⟨_, _, _, hend⟩ := wf_escNoncanon.1 h
  exact hend

/-- Settles O18: a pair by its two lemmas, a single byte by those of rule R244. -/
theorem bodySymbolsStoreTheirByte : Obligations.BodySymbolsStoreTheirByte := by
  intro s hp
  obtain ⟨e0A, e0D, e5E⟩ := exec_canonicalPair s
  simp only [e0A, e0D, e5E, exec_escNoncanon, exec_literal, exec_symStart, Host.Outcome.next.injEq]
  refine ⟨fun he => ?nonePending, fun he => ?escPending⟩
  case nonePending =>
    refine ⟨lineRecvAll_pair hp he (by decide), lineRecvAll_pair hp he (by decide),
      lineRecvAll_pair hp he (by decide),
      fun y hy => lineRecvAll_pair hp he (escNoncanon_ne_endByte hy), fun b hb => ?literal,
      lineRecv_plain hp he (by decide) (by decide)⟩
    case literal =>
      obtain ⟨hend, _, hesc⟩ := wf_literal.1 hb
      exact lineRecv_plain hp he hend hesc
  case escPending =>
    exact ⟨lineRecvAll_pair_pending hp he (by decide), lineRecvAll_pair_pending hp he (by decide),
      lineRecvAll_pair_pending hp he (by decide),
      fun y hy => lineRecvAll_pair_pending hp he (escNoncanon_ne_endByte hy),
      fun b hb => lineRecv_pending hp he (wf_literal.1 hb).1,
      lineRecv_pending hp he (by decide)⟩

end Sys2Proof.Machine
end

section
/-!
PROOFS. The CRC generator (spec/41_crc.md rules R170 to R182): one bit of the shift register is linear
over exclusive-or, so the register's high and low byte can be followed apart. The low byte is only
shifted, which is the table form (rule R173). Feeding the register its own high byte leaves the low
byte alone in the high half, which gives the residue law (rule R174). Last, the writes of the
standalone unit.
-/

namespace Sys2Proof.Machine

/-! ### The shift register -/

theorem crcShift_of_msb {c : Word16} (h : c.msb = true) : crcShift c = c <<< 1 ^^^ crcPoly :=
  if_pos h

theorem crcShift_of_not_msb {c : Word16} (h : c.msb = false) : crcShift c = c <<< 1 :=
  if_neg (Bool.eq_false_iff.1 h)

/-- One bit of rule R171 is linear: the polynomials of two set top bits cancel. -/
theorem crcShift_xor (x y : Word16) : crcShift (x ^^^ y) = crcShift x ^^^ crcShift y := by
  have hmsb : (x ^^^ y).msb = (x.msb ^^ y.msb) := BitVec.msb_xor
  cases hx : x.msb <;> cases hy : y.msb <;> rw [hx, hy] at hmsb
  case false.false =>
    rw [crcShift_of_not_msb hmsb, crcShift_of_not_msb hx, crcShift_of_not_msb hy,
      BitVec.shiftLeft_xor_distrib]
  case false.true =>
    rw [crcShift_of_msb hmsb, crcShift_of_not_msb hx, crcShift_of_msb hy,
      BitVec.shiftLeft_xor_distrib, BitVec.xor_assoc]
  case true.false =>
    rw [crcShift_of_msb hmsb, crcShift_of_msb hx, crcShift_of_not_msb hy,
      BitVec.shiftLeft_xor_distrib]
    ac_rfl
  case true.true =>
    have hcancel : x <<< 1 ^^^ crcPoly ^^^ (y <<< 1 ^^^ crcPoly) =
        x <<< 1 ^^^ y <<< 1 ^^^ (crcPoly ^^^ crcPoly) := by ac_rfl
    rw [crcShift_of_not_msb hmsb, crcShift_of_msb hx, crcShift_of_msb hy,
      BitVec.shiftLeft_xor_distrib, hcancel, BitVec.xor_self, BitVec.xor_zero]

theorem crcShifts_xor (n : Nat) (x y : Word16) :
    crcShifts n (x ^^^ y) = crcShifts n x ^^^ crcShifts n y := by
  induction n generalizing x y with
  | zero => rfl
  | succ n ih => simp only [crcShifts, crcShift_xor, ih]

/-- The polynomial does not enter while no set bit leaves the register. -/
theorem crcShifts_eq_shiftLeft {n : Nat} {x : Word16} (h : x.toNat * 2 ^ n < 2 ^ 16) :
    crcShifts n x = x <<< n := by
  induction n generalizing x with
  | zero => exact (BitVec.shiftLeft_zero x).symm
  | succ n ih =>
    have hdouble : x.toNat * 2 * 2 ^ n < 2 ^ 16 := by
      rwa [Nat.pow_succ', ← Nat.mul_assoc] at h
    have hfits : x.toNat * 2 < 2 ^ 16 :=
      (Nat.le_mul_of_pos_right _ (Nat.two_pow_pos n)).trans_lt hdouble
    have hmsb : x.msb = false := by rw [BitVec.msb_eq_false_iff_two_mul_lt]; omega
    have hshift : (x <<< 1).toNat = x.toNat * 2 := by
      rw [BitVec.toNat_shiftLeft, Nat.shiftLeft_eq, Nat.pow_one, Nat.mod_eq_of_lt hfits]
    have hnext : crcShifts n (x <<< 1) = x <<< 1 <<< n := ih (by rwa [hshift])
    rw [crcShifts, crcShift_of_not_msb hmsb, hnext, ← BitVec.shiftLeft_add, Nat.add_comm]

/-! ### The two bytes of the register -/

theorem getLsbD_loByte (c : Word16) (k : Nat) :
    (loByte c).getLsbD k = (decide (k < 8) && c.getLsbD k) :=
  BitVec.getLsbD_setWidth ..

theorem getLsbD_hiByte (c : Word16) (k : Nat) :
    (hiByte c).getLsbD k = (decide (k < 8) && c.getLsbD (8 + k)) :=
  BitVec.getLsbD_extractLsb' ..

theorem hiByte_shiftLeft_eight (c : Word16) : hiByte (c <<< 8) = loByte c := by
  apply BitVec.eq_of_getLsbD_eq
  intro k hk
  rw [getLsbD_hiByte, getLsbD_loByte, BitVec.getLsbD_shiftLeft, Nat.add_sub_cancel_left]
  have h16 : 8 + k < 16 := by omega
  simp [h16]

theorem loByte_shiftLeft_eight (c : Word16) : (loByte c).setWidth 16 <<< 8 = c <<< 8 := by
  apply BitVec.eq_of_getLsbD_eq
  intro k hk
  rw [BitVec.getLsbD_shiftLeft, BitVec.getLsbD_shiftLeft, BitVec.getLsbD_setWidth, getLsbD_loByte]
  have h8 : k - 8 < 8 := by omega
  have h16 : k - 8 < 16 := by omega
  simp [h8, h16]

/-- Feeding a byte touches the high byte of the register only. -/
theorem xor_feed_eq (c : Word16) (b : Byte) : c ^^^ b.setWidth 16 <<< 8 =
    (hiByte c ^^^ b).setWidth 16 <<< 8 ^^^ (loByte c).setWidth 16 := by
  apply BitVec.eq_of_getLsbD_eq
  intro k hk
  simp only [BitVec.getLsbD_xor, BitVec.getLsbD_shiftLeft, BitVec.getLsbD_setWidth, getLsbD_hiByte,
    getLsbD_loByte]
  by_cases hlow : k < 8
  · simp [hlow, hk]
  · have h8 : k - 8 < 8 := by omega
    have h16 : k - 8 < 16 := by omega
    have hsum : 8 + (k - 8) = k := by omega
    simp [hlow, hk, h8, h16, hsum]

/-! ### The table form -/

/-- Rule R173's table: its entry for a byte is the byte shifted through from the high half. -/
theorem crcUpd_zero (b : Byte) : crcUpd 0x0000 b = crcShifts 8 (b.setWidth 16 <<< 8) :=
  congrArg (crcShifts 8) BitVec.zero_xor

theorem crcUpd_zero_zero : crcUpd 0x0000 0x00 = 0x0000 := rfl

/-- The low byte of the register fits eight shifts. -/
theorem crcShifts_loByte (c : Word16) : crcShifts 8 ((loByte c).setWidth 16) = c <<< 8 := by
  have hlt : ((loByte c).setWidth 16).toNat < 2 ^ 8 := by
    rw [BitVec.toNat_setWidth_of_le (by omega)]
    exact (loByte c).isLt
  rw [crcShifts_eq_shiftLeft (by omega), loByte_shiftLeft_eight]

theorem crcUpd_eq_table (c : Word16) (b : Byte) :
    crcUpd c b = c <<< 8 ^^^ crcUpd 0x0000 (hiByte c ^^^ b) := by
  rw [crcUpd, xor_feed_eq, crcShifts_xor, crcShifts_loByte, ← crcUpd_zero, BitVec.xor_comm]

/-- Settles O43: the high byte goes through the table and the low byte is shifted, by linearity. -/
theorem crcTableFormAgrees : Obligations.CrcTableFormAgrees := crcUpd_eq_table

/-! ### The residue -/

/-- Feeding the register its own high byte cancels it, and the low byte takes its place. -/
theorem crcUpd_hiByte (c : Word16) : crcUpd c (hiByte c) = c <<< 8 := by
  have hcancel : hiByte c ^^^ hiByte c = 0x00 := BitVec.xor_self
  rw [crcUpd_eq_table, hcancel, crcUpd_zero_zero]
  exact BitVec.xor_zero

/-- Rule R174 for a register value: its own trailer takes it to 0x0000. -/
theorem foldl_crcUpd_crcTrailer (c : Word16) : (crcTrailer c).foldl crcUpd c = 0x0000 :=
  calc crcUpd (crcUpd c (hiByte c)) (loByte c)
    _ = crcUpd (c <<< 8) (hiByte (c <<< 8)) := by rw [crcUpd_hiByte, hiByte_shiftLeft_eight]
    _ = c <<< 8 <<< 8 := crcUpd_hiByte _
    _ = c <<< 16 := (BitVec.shiftLeft_add c 8 8).symm
    _ = 0x0000 := BitVec.shiftLeft_eq_zero (Nat.le_refl 16)

theorem crcTrailer_eq (c : Word16) : crcTrailer c = [c.extractLsb' 8 8, c.extractLsb' 0 8] := by
  rw [crcTrailer, hiByte, loByte_eq_extract]

/-- Settles O42: the trailer is fed to a register that holds the CRC it was made from. -/
theorem crcResidueOfAnIntactBodyIsZero : Obligations.CrcResidueOfAnIntactBodyIsZero := by
  intro s
  rw [← crcTrailer_eq, crc16_append, foldl_crcUpd_crcTrailer]

/-! ### Leading zero bytes and the check value -/

theorem crc16_zero_cons (s : List Byte) : crc16 (0x00 :: s) = crc16 s := by
  rw [crc16, crc16, List.foldl_cons, crcInit, crcUpd_zero_zero]

/-- Settles O44: a zero byte leaves the register at its initial value; the check value evaluates. -/
theorem crcZeroPrefixAndCheckValue : Obligations.CrcZeroPrefixAndCheckValue :=
  ⟨crc16_zero_cons, by decide +kernel⟩

/-! ### The standalone CRC unit -/

/-- Rule R101: a write has the top bit of its word set. -/
theorem encode_wrCrc (d : Byte) : encode (.wrCrcAccHi d) = [0x8F, d] ∧
    encode (.wrCrcAccLo d) = [0x90, d] ∧ encode (.wrCrcIn d) = [0x91, d] := ⟨rfl, rfl, rfl⟩

theorem exec_wrCrcAccHi (d : Byte) (s : State) :
    exec (.wrCrcAccHi d) s = .next (s.setCrcAcc (pair d (loByte s.crcAcc))) := rfl

theorem exec_wrCrcAccLo (d : Byte) (s : State) :
    exec (.wrCrcAccLo d) s = .next (s.setCrcAcc (pair (hiByte s.crcAcc) d)) := rfl

theorem exec_wrCrcIn (d : Byte) (s : State) :
    exec (.wrCrcIn d) s = .next (s.setCrcAcc (crcUpd s.crcAcc d)) := rfl

/-- Settles O8: each write is `setCrcAcc`, which sets no other field, with no look at the phase. -/
theorem crcUnitWritesChangeOnlyTheAccumulator :
    Obligations.CrcUnitWritesChangeOnlyTheAccumulator := by
  intro s d
  obtain ⟨hhi, hlo, hin⟩ := encode_wrCrc d
  refine ⟨hhi, hlo, hin, ?accHi, ?accLo, exec_wrCrcIn d s⟩
  case accHi => rw [exec_wrCrcAccHi, loByte_eq_extract]; rfl
  case accLo => rw [exec_wrCrcAccLo]; rfl

end Sys2Proof.Machine
end

section
/-!
PROOFS. The send half of the transport (spec/42_transport_tx.md): what a byte written to CMD does in each
phase (rules R200 to R208), the length of a request frame (rule R209), the step that hands over one byte
(rule R210), and that the wire gains the frame in order (rule R211): by rounds of SEQ and UTX, and under
every interleaving, because every other step leaves the transmission alone.
-/

namespace Sys2Proof.Machine

/-! ### Bytes written to CMD -/

/-- The commands of the CMD, BUS and REQ rows are issued alike (rules R201 and R202, and
notes/assumptions/9 and 10). -/
theorem exec_command {i : Instr} {o : Op} (h : commandOf i = some o) (s : State) :
    exec i s = .next (s.issue o) := by
  unfold commandOf at h
  split at h
  · next hi => cases h; rcases hi with rfl | rfl | rfl <;> rfl
  · split at h
    · next hi => cases h; rcases hi with rfl | rfl | rfl <;> rfl
    · cases h

/-- Rule R204. -/
theorem exec_reservedCommand {i : Instr} (h : ReservedCommand i) (s : State) :
    exec i s = .next s.reject := by
  rcases h with rfl | ⟨op, rsv, rfl⟩ | ⟨d, rfl⟩ <;> rfl

/-- Rule R103: a CMD byte that is no command's is a reserved one's. -/
theorem decodeCmd_reservedCommand {d : Byte} (h : (Instr.wrCmdRsv d).wf = true) :
    ReservedCommand (decodeCmd d) := by
  obtain ⟨h0, h1, h2⟩ := wf_wrCmdRsv.1 h
  unfold decodeCmd
  split
  case h_4 => exact .inl rfl
  case h_5 => exact .inr (.inl ⟨_, _, rfl⟩)
  all_goals contradiction

theorem decode_wrCmdRsv {d : Byte} (h : (Instr.wrCmdRsv d).wf = true) :
    decode .bus [0x81, d] = .ok (.wrCmdRsv d, []) := by
  have hdecode : decode .bus [0x81, d] = .ok (decodeBusCommand d, []) := decode_busWrite 0x01 d []
  rw [hdecode, decodeBusCommand_reserved h]

/-- Settles O9: a byte other than the three commands' decodes, in both formats, to a reserved command,
and every reserved command is rejected. -/
theorem nopAndReservedCommandsInAnyPhase : Obligations.NopAndReservedCommandsInAnyPhase := by
  intro s
  refine ⟨rfl, rfl, rfl, rfl, ?byte, exec_reservedCommand (.inl rfl) s, ?cmd, ?bus⟩
  case byte =>
    intro d h0 h1 h2
    have hwf : (Instr.wrCmdRsv d).wf = true := wf_wrCmdRsv.2
      ⟨fun h => h0 (BitVec.eq_of_toNat_eq h), fun h => h1 (BitVec.eq_of_toNat_eq h),
        fun h => h2 (BitVec.eq_of_toNat_eq h)⟩
    exact ⟨decodeCmd d, .wrCmdRsv d, rfl, decode_wrCmdRsv hwf,
      exec_reservedCommand (decodeCmd_reservedCommand hwf) s,
      exec_reservedCommand (.inr (.inr ⟨d, rfl⟩)) s⟩
  case cmd => exact fun op rsv _ => exec_reservedCommand (.inr (.inl ⟨op, rsv, rfl⟩)) s
  case bus => exact fun d _ => exec_reservedCommand (.inr (.inr ⟨d, rfl⟩)) s

/-- Rule R203. -/
theorem exec_command_busy {i : Instr} {o : Op} (h : commandOf i = some o) {s : State}
    (hp : s.phase ≠ .idle) : exec i s = .next s.reject := by
  rw [exec_command h, issue_busy hp]

/-- Rule R206. -/
theorem exec_command_range {i : Instr} {o : Op} (h : commandOf i = some o) {s : State}
    (hp : s.phase = .idle) (hsrc : s.src.toNat < Config.srcMin.toNat) :
    exec i s = .next (rangeErrorState s o) := by
  rw [exec_command h, issue_range hp hsrc, complete_accept_eq hp]

/-- Rules R207 and R208. -/
theorem exec_command_frame {i : Instr} {o : Op} (h : commandOf i = some o) {s : State}
    (hp : s.phase = .idle) (hsrc : Config.srcMin.toNat ≤ s.src.toNat) :
    exec i s = .next (requestState s o (telegramCode o) (s.payload o)) := by
  rw [exec_command h, issue_frame hp hsrc, startFrame_accept_eq]

/-- Settles O10: each of the four rows is a command, and a command is rejected while BUSY. -/
theorem commandsWhileBusyAreRejected : Obligations.CommandsWhileBusyAreRejected := fun _ hp =>
  ⟨exec_command_busy (o := .read) rfl hp, exec_command_busy (o := .read) rfl hp,
    exec_command_busy (o := .write) rfl hp, exec_command_busy (o := .write) rfl hp⟩

/-- Settles O11: acceptance followed at once by completion. -/
theorem sourceOutOfRangeCompletesAtOnce : Obligations.SourceOutOfRangeCompletesAtOnce :=
  fun _ hp hsrc =>
    ⟨exec_command_range rfl hp hsrc, exec_command_range rfl hp hsrc,
      exec_command_range rfl hp hsrc, exec_command_range rfl hp hsrc⟩

/-- Settles O12: the payload of a READ is empty. -/
theorem acceptedReadFramesItsRequest : Obligations.AcceptedReadFramesItsRequest :=
  fun _ hp hsrc =>
    ⟨exec_command_frame (o := .read) rfl hp hsrc, exec_command_frame (o := .read) rfl hp hsrc⟩

/-- Settles O13: the payload of a WRITE that fits TXBUF is read at TXBUF's addresses. -/
theorem acceptedWriteFramesItsRequest : Obligations.AcceptedWriteFramesItsRequest := by
  intro s hp hsrc hlen
  have hframe {i : Instr} (hi : commandOf i = some .write) := exec_command_frame hi hp hsrc
  rw [State.payload, writePayload_eq hlen] at hframe
  exact ⟨hframe rfl, hframe rfl⟩

/-! ### The length of a request frame -/

/-- A source address in range is above the three reserved bytes (rules R140 and R206). -/
theorem src_not_reserved {src : Byte} (h : Config.srcMin.toNat ≤ src.toNat) :
    isReserved src = false := by
  refine (not_isReserved_iff src).2 ⟨?_, ?_, ?_⟩ <;> rintro rfl <;> revert h <;> decide

theorem telegramCode_not_reserved (o : Op) : isReserved (telegramCode o) = false := by
  cases o <;> rfl

/-- Of the four bytes before the payload at most DEST and REG are escaped. -/
theorem requestHead_countP_le {src : Byte} (h : Config.srcMin.toNat ≤ src.toNat) (dest reg : Byte)
    (o : Op) (p : List Byte) :
    (requestHead dest src (telegramCode o) reg p).countP isReserved ≤ 2 + p.length := by
  have hdest : [dest].countP isReserved ≤ 1 := List.countP_le_length
  have hreg : [reg].countP isReserved ≤ 1 := List.countP_le_length
  have hp : p.countP isReserved ≤ p.length := List.countP_le_length
  calc (requestHead dest src (telegramCode o) reg p).countP isReserved
    _ = [dest].countP isReserved + [reg].countP isReserved + p.countP isReserved := by
        simp only [requestHead, List.cons_append, List.nil_append, List.countP_cons,
          List.countP_nil, src_not_reserved h, telegramCode_not_reserved, Bool.false_eq_true, if_false]
        omega
    _ ≤ 2 + p.length := by omega

/-- Rule R109: the two delimiters, the body, and one byte more for each body byte that is escaped. -/
theorem frame_length (body : List Byte) :
    (frame body).length = 2 + body.length + body.countP isReserved := by
  simp only [frame, List.length_append, List.length_singleton, escape_length]
  omega

theorem requestBody_length (dest src code reg : Byte) (p : List Byte) :
    (requestBody dest src code reg p).length = 6 + p.length := by
  simp only [requestBody, requestHead, crcTrailer, List.length_append, List.length_cons,
    List.length_nil]
  omega

theorem crcTrailer_countP_le (c : Word16) : (crcTrailer c).countP isReserved ≤ 2 :=
  List.countP_le_length

/-- The CRC adds two bytes to the head, each of which may be escaped. -/
theorem requestBody_countP_le {src : Byte} (h : Config.srcMin.toNat ≤ src.toNat) (dest reg : Byte)
    (o : Op) (p : List Byte) :
    (requestBody dest src (telegramCode o) reg p).countP isReserved ≤ 4 + p.length := by
  rw [requestBody, List.countP_append]
  exact (Nat.add_le_add (requestHead_countP_le h dest reg o p) (crcTrailer_countP_le _)).trans
    (by omega)

/-- Settles O45: the body has six bytes and the payload, and two of the six are never escaped. -/
theorem frameLengthBounds : Obligations.FrameLengthBounds := by
  intro dest src reg o p hsrc
  have hcount := requestBody_countP_le hsrc dest reg o p
  rw [frame_length, requestBody_length]
  omega

/-! ### One byte handed over, one byte sent -/

theorem fetchMove_seq_framing {s : State} (hp : s.phase = .framing) (hb : s.utxBusy = false) :
    fetchMove .seq s = .agent .txEmit s := by
  simp [fetchMove, fetchSeq, hp, hb]

theorem fetchMove_utx_busy {s : State} (hb : s.utxBusy = true) :
    fetchMove .utx s = .agent .utxDone s := by
  simp [fetchMove, hb]

/-- A step whose fetch finds an agent's step runs it. -/
theorem step_of_fetch_agent {s u : State} {a : AgentStep} (h : fetch s = .agent a u) :
    step s = runAgent a u := by
  unfold step
  rw [h]

/-- TX_EMIT, rule R210. -/
theorem step_seq_framing {s : State} {es : List Event} {b : Byte} (ha : s.agenda = .move .seq :: es)
    (hp : s.phase = .framing) (hb : s.utxBusy = false) (hbyte : s.txFrame[s.txIdx]? = some b) :
    step s = .next ((s.setAgenda es).lineSend b).advanceTx := by
  have hf : fetch s = .agent .txEmit (s.setAgenda es) :=
    (fetch_of_agenda_move ha).trans (fetchMove_seq_framing hp hb)
  have hbyte' : (s.setAgenda es).txFrame[(s.setAgenda es).txIdx]? = some b := hbyte
  rw [step_of_fetch_agent hf, runAgent, txEmit, hbyte']

/-- UTX_DONE, rule R294. -/
theorem step_utx_busy {s : State} {es : List Event} (ha : s.agenda = .move .utx :: es)
    (hb : s.utxBusy = true) : step s = .next (s.setAgenda es).utxDone := by
  have hf : fetch s = .agent .utxDone (s.setAgenda es) :=
    (fetch_of_agenda_move ha).trans (fetchMove_utx_busy hb)
  rw [step_of_fetch_agent hf, runAgent]

/-- Settles O27: TX_EMIT is fetched, and its two cases are those of the last byte and an earlier one. -/
theorem emitHandsOverTheNextByte : Obligations.EmitHandsOverTheNextByte := by
  intro s es b ha hp hb hbyte
  rw [step_seq_framing ha hp hb hbyte]
  rfl

/-! ### The frame sent by rounds of SEQ and UTX -/

theorem run_zero (s : State) : s.run 0 = .next s := rfl

theorem core_run_succ {M : Host.Core} {s u : M.State} (h : M.step s = .next u) (k : Nat) :
    M.run (k + 1) s = M.run k u := by
  simp only [Host.Core.run, h]

theorem run_succ_of_step {s u : State} (h : step s = .next u) (k : Nat) :
    s.run (k + 1) = u.run k :=
  core_run_succ (M := Sys2Proof.core) h k

/-- The state after SEQ has handed over b and UTX has completed it, with es lined up. -/
def State.sendByte (s : State) (b : Byte) (es : List Event) : State :=
  ((((s.setAgenda (.move .utx :: es)).lineSend b).advanceTx).setAgenda es).utxDone

/-- A round of SEQ and UTX sends the byte at the index. -/
theorem run_round {s : State} {es : List Event} {b : Byte}
    (ha : s.agenda = .move .seq :: .move .utx :: es) (hp : s.phase = .framing)
    (hb : s.utxBusy = false) (hbyte : s.txFrame[s.txIdx]? = some b) (k : Nat) :
    s.run (k + 2) = (s.sendByte b es).run k := by
  have hemit := step_seq_framing ha hp hb hbyte
  have hdone : step ((s.setAgenda (.move .utx :: es)).lineSend b).advanceTx =
      .next (s.sendByte b es) :=
    step_utx_busy (by simp) (by simp)
  rw [run_succ_of_step hemit, run_succ_of_step hdone]

/-- The hunt begins with the last byte and not before (rule R210). -/
theorem sendByte_last {s : State} (h : s.txIdx + 1 = s.txFrame.length) (b : Byte)
    (es : List Event) :
    (s.sendByte b es).phase = .awaitStart ∧ (s.sendByte b es).toCnt = 0x0000 := by
  simp [State.sendByte, advanceTx_phase, advanceTx_toCnt, h]

theorem sendByte_phase_of_more {s : State} (h : s.txIdx + 1 ≠ s.txFrame.length) (b : Byte)
    (es : List Event) : (s.sendByte b es).phase = s.phase := by
  simp [State.sendByte, advanceTx_phase, h]

/-- A round takes one byte off what is left of the frame. -/
theorem sendByte_left (s : State) (b : Byte) (es : List Event) :
    (s.sendByte b es).txFrame.drop (s.sendByte b es).txIdx = s.txFrame.drop (s.txIdx + 1) := by
  simp [State.sendByte]

theorem sendByte_wireOut (s : State) (b : Byte) (es : List Event) :
    (s.sendByte b es).wireOut = s.wireOut ++ [b] := by simp [State.sendByte]

/-- What a list that still has b and bs from the index on says of the index. -/
theorem drop_eq_cons {l bs : List Byte} {b : Byte} {i : Nat} (h : l.drop i = b :: bs) :
    l[i]? = some b ∧ l.drop (i + 1) = bs ∧ i + 1 + bs.length = l.length := by
  have hhead : l[i]? = some b := by rw [← List.head?_drop, h]; rfl
  have htail : l.drop (i + 1) = bs := by rw [← List.drop_drop, h]; rfl
  have hlt : i < l.length := (List.getElem?_eq_some_iff.1 hhead).1
  have hlen : bs.length = l.length - (i + 1) := by rw [← htail, List.length_drop]
  exact ⟨hhead, htail, by omega⟩

/-- The first of the rounds that send the bytes left of a frame. -/
theorem run_round_of_left {s : State} {es : List Event} {b : Byte} {bs : List Byte}
    (ha : s.agenda = sendEvents (bs.length + 1) ++ es) (hp : s.phase = .framing)
    (hb : s.utxBusy = false) (hleft : s.txFrame.drop s.txIdx = b :: bs) :
    s.run (2 * (bs.length + 1)) =
      (s.sendByte b (sendEvents bs.length ++ es)).run (2 * bs.length) :=
  run_round ha hp hb (drop_eq_cons hleft).1 _

/-- The rounds that send the bytes left of a frame, by induction on these bytes: the last one begins the
hunt. -/
theorem run_sendEvents {s : State} {es : List Event} {b : Byte} {bs : List Byte}
    (ha : s.agenda = sendEvents (bs.length + 1) ++ es) (hp : s.phase = .framing)
    (hb : s.utxBusy = false) (hleft : s.txFrame.drop s.txIdx = b :: bs) :
    ∃ t, s.run (2 * (bs.length + 1)) = .next t ∧ t.wireOut = s.wireOut ++ b :: bs ∧
      t.phase = .awaitStart ∧ t.toCnt = 0x0000 ∧ t.utxBusy = false ∧ t.agenda = es := by
  induction bs generalizing s b with
  | nil =>
    obtain ⟨_, _, hlen⟩ := drop_eq_cons hleft
    obtain ⟨hphase, hcnt⟩ := sendByte_last hlen b es
    exact ⟨_, run_round_of_left ha hp hb hleft, sendByte_wireOut .., hphase, hcnt, rfl, rfl⟩
  | cons c cs ih =>
    obtain ⟨_, hrest, hlen⟩ := drop_eq_cons hleft
    have hmore : s.txIdx + 1 ≠ s.txFrame.length := by rw [List.length_cons] at hlen; omega
    have hphase := (sendByte_phase_of_more hmore b (sendEvents (cs.length + 1) ++ es)).trans hp
    obtain ⟨t, hrun, hwire, ht⟩ := ih rfl hphase rfl ((sendByte_left ..).trans hrest)
    rw [sendByte_wireOut, List.append_assoc] at hwire
    exact ⟨t, (run_round_of_left ha hp hb hleft).trans hrun, hwire, ht⟩

/-! ### Steps that leave the transmission alone -/

/-- From s to t the frame, how much of it is handed over, and what the transmitter was handed stay, and
no frame is begun. -/
structure KeepsTx (s t : State) : Prop where
  frame : t.txFrame = s.txFrame
  idx : t.txIdx = s.txIdx
  handed : t.handedOver = s.handedOver
  phase : t.phase = .framing → s.phase = .framing

theorem KeepsTx.refl (s : State) : KeepsTx s s := ⟨rfl, rfl, rfl, id⟩

theorem Scheduled.keepsTx {s u : State} (h : Scheduled s u) : KeepsTx s u := by
  obtain ⟨es, n, rfl⟩ := h
  exact ⟨rfl, rfl, rfl, id⟩

theorem KeepsTx.trans {s u t : State} (h : KeepsTx s u) (h' : KeepsTx u t) : KeepsTx s t :=
  ⟨h'.frame.trans h.frame, h'.idx.trans h.idx, h'.handed.trans h.handed, h.phase ∘ h'.phase⟩

/-- Completion leaves the transmitter and begins no frame (rule R345). -/
theorem complete_keepsTx (s : State) (c : ErrCode) : KeepsTx s (s.complete c) :=
  ⟨rfl, rfl, rfl, nofun⟩

theorem response_keepsTx (s : State) (b : Byte) : KeepsTx s (s.response b) := by
  rcases response_cases s b with ⟨_, e⟩ | ⟨_, e⟩ <;> rw [e]
  · rcases validate_cases s b with ⟨c, _, e⟩ | ⟨_, _, _, _, e⟩ <;> rw [e]
    · exact { complete_keepsTx s c with }
    · exact { complete_keepsTx s (classify s.op b) with }
  · exact .refl s

/-- Reception and transmission share no field but the phase, and reception begins no frame. -/
theorem lineRecvAll_keepsTx (s : State) (bs : List Byte) : KeepsTx s (s.lineRecvAll bs) :=
  reception_keeps (P := KeepsTx s)
    (hopen := fun _ _ h => { h with phase := nofun })
    (hend := fun _ _ h => { h with phase := nofun })
    (hesc := fun _ _ _ h => { h with })
    (hstore := fun _ _ _ h => { h with }) bs (.refl s)

theorem countTick_keepsTx (s : State) (c : ErrCode) : KeepsTx s (s.countTick c) := by
  rcases countTick_cases s c with ⟨_, e⟩ | ⟨_, e⟩ <;> rw [e]
  · exact { complete_keepsTx s c with }
  · exact { KeepsTx.refl s with }

theorem tick_keepsTx (s : State) : KeepsTx s s.tick := by
  rcases tick_cases s with ⟨_, e⟩ | ⟨_, e⟩ | ⟨_, _, e⟩ <;> rw [e]
  · exact countTick_keepsTx s _
  · exact countTick_keepsTx s _
  · exact .refl s

/-- UTX_DONE moves the byte being sent to the wire (rule R294). -/
theorem utxDone_keepsTx {s : State} (h : s.utxBusy = true) : KeepsTx s s.utxDone :=
  ⟨rfl, rfl, by simp [State.handedOver, h], id⟩

/-! ### What a step does to the transmission -/

/-- A step that is no reset leaves the transmission alone, begins a frame (rule R208), or hands over the
frame's next byte (rule R210). -/
inductive TxMove (s t : State) : Prop where
  | kept (h : KeepsTx s t)
  | begun (hs : s.phase = .idle) (ht : t.phase = .framing) (hidx : t.txIdx = 0)
      (hhanded : t.handedOver = s.handedOver)
  | emitted (b : Byte) (hs : s.phase = .framing) (hbyte : s.txFrame[s.txIdx]? = some b)
      (hframe : t.txFrame = s.txFrame) (hidx : t.txIdx = s.txIdx + 1)
      (hhanded : t.handedOver = s.handedOver ++ [b])

/-- Scheduling before a move of the transmission makes no difference to it. -/
theorem TxMove.of_scheduled {s u t : State} (hs : Scheduled s u) (h : TxMove u t) : TxMove s t := by
  obtain ⟨es, n, rfl⟩ := hs
  cases h with
  | kept h => exact .kept { h with }
  | begun hs ht hidx hhanded => exact .begun hs ht hidx hhanded
  | emitted b hs hbyte hframe hidx hhanded => exact .emitted b hs hbyte hframe hidx hhanded

theorem issue_txMove (s : State) (o : Op) : TxMove s (s.issue o) := by
  rcases issue_cases s o with ⟨_, e⟩ | ⟨_, _, e⟩ | ⟨hp, _, e⟩ <;> rw [e]
  · exact .kept { KeepsTx.refl s with }
  · exact .kept { complete_keepsTx s .srcRange with }
  · exact .begun hp rfl rfl rfl

/-- Of the effects of an instruction only a command touches the transmission. -/
theorem Effect.txMove {i : Instr} {s t : State} (he : Effect i s t) : TxMove s t := by
  cases he with
  | issue o _ => exact issue_txMove s o
  | response _ b => exact .kept (response_keepsTx s b)
  | line _ bs => exact .kept (lineRecvAll_keepsTx s bs)
  | _ => exact .kept { KeepsTx.refl s with }

/-- TX_EMIT appends the byte at the index to what is handed over (rule R210). -/
theorem emit_txMove {s : State} {b : Byte} (hp : s.phase = .framing) (hb : s.utxBusy = false)
    (hbyte : s.txFrame[s.txIdx]? = some b) : TxMove s (s.lineSend b).advanceTx :=
  .emitted b hp hbyte (advanceTx_txFrame _) (advanceTx_txIdx _) (by simp [State.handedOver, hb])

theorem step_txMove {s t : State} (h : step s = .next t)
    (hreset : ∀ u, fetch s ≠ .agent .reset u) : TxMove s t := by
  rcases step_effect h with hs | ⟨u, hs, hc⟩
  · exact .kept hs.keepsTx
  · refine .of_scheduled hs ?_
    rcases hc with ⟨i, _, he⟩ | ⟨_, hb, rfl⟩ | ⟨_, rfl⟩ | ⟨_, rfl⟩ | ⟨hf, _⟩ | ⟨_, hp, hb, b, hx, rfl⟩
    · exact he.txMove
    · exact .kept (utxDone_keepsTx hb)
    · exact .kept { KeepsTx.refl u with }
    · exact .kept (tick_keepsTx u)
    · exact absurd hf (hreset u)
    · exact emit_txMove hp hb hx

/-- A move of the transmission that begins a frame hands nothing over. -/
theorem TxMove.of_begun {s t : State} (h : TxMove s t) (hs : s.phase = .idle)
    (ht : t.phase = .framing) : t.txIdx = 0 ∧ t.handedOver = s.handedOver := by
  cases h with
  | kept h => exact nomatch hs.symm.trans (h.phase ht)
  | begun _ _ hidx hhanded => exact ⟨hidx, hhanded⟩
  | emitted _ hp => exact nomatch hs.symm.trans hp

/-- A move of the transmission that begins no frame keeps the frame, and with it how what is handed over
is made of the frame's first bytes. -/
theorem TxMove.of_not_begun {s t : State} (h : TxMove s t)
    (hn : ¬ (s.phase = .idle ∧ t.phase = .framing)) : t.txFrame = s.txFrame ∧
      ∀ w, s.handedOver = w ++ s.txFrame.take s.txIdx →
        t.handedOver = w ++ t.txFrame.take t.txIdx := by
  cases h with
  | kept h => exact ⟨h.frame, fun w hw => by rw [h.handed, h.frame, h.idx, hw]⟩
  | begun hs ht => exact absurd ⟨hs, ht⟩ hn
  | emitted b _ hbyte hframe hidx hhanded =>
    refine ⟨hframe, fun w hw => ?_⟩
    rw [hhanded, hframe, hidx, List.take_add_one, hbyte, hw, List.append_assoc]
    rfl

/-- Settles O47: the run by induction on the bytes left, the step by what it does to the transmission. -/
theorem frameReachesTheWireInOrder : Obligations.FrameReachesTheWireInOrder := by
  refine ⟨?run, fun s t h hreset => ?step⟩
  case run =>
    intro s hp hidx hne hb
    obtain ⟨b, bs, hframe⟩ := List.exists_cons_of_ne_nil hne
    have hleft : s.txFrame.drop s.txIdx = b :: bs := by rw [hidx, hframe]; rfl
    have hrun := run_sendEvents (s := s.offer (sendEvents (bs.length + 1))) rfl hp hb hleft
    rwa [hframe]
  case step =>
    have hmove := step_txMove h hreset
    exact ⟨fun hbegun => hmove.of_begun hbegun.1 hbegun.2, hmove.of_not_begun⟩

end Sys2Proof.Machine
end

section
/-!
PROOFS. The receive half of the transport (spec/43_transport_rx.md): what one stored byte does, and that
the running CRC stays that of the stored body (rule R245); what a delivered byte does in each phase
(rules R240 to R247); what the bytes of a body leave in RXBUF, in the CRC and in the count (rule R244);
the checks of VALIDATE (rules R250 to R256); and a whole reception as steps of the machine (rule R248).
-/

namespace Sys2Proof.Machine

/-! ### One stored byte -/

/-- A stored byte keeps the memory canonical, whether it fits or not. -/
theorem store_mem_wf {s : State} (hm : s.mem.wf = true) (d : Byte) : (s.store d).mem.wf = true := by
  rw [store_mem]
  split
  · exact Memory.wf_write hm
  · exact hm

/-- Rule R245: one byte of RXBUF changes, and none when the body does not fit. -/
theorem store_mem_read {s : State} (hm : s.mem.wf = true) (d : Byte) (a : Nat) :
    (s.store d).mem.read a =
      if a = rxbufBase + s.rxCnt ∧ s.rxCnt < s.cfg.rxbuf then d else s.mem.read a := by
  rw [store_mem]
  by_cases hfits : s.rxCnt < s.cfg.rxbuf
  · rw [if_pos hfits, Memory.read_write hm]
    simp only [hfits, and_true]
  · simp only [hfits, and_false, if_false]

theorem store_rxbufAt {s : State} (hm : s.mem.wf = true) (d : Byte) (i : Nat) :
    (s.store d).rxbufAt i = if i = s.rxCnt ∧ i < s.cfg.rxbuf then d else s.rxbufAt i := by
  by_cases hi : i < s.cfg.rxbuf
  · simp only [State.rxbufAt, store_cfg, if_pos hi, store_mem_read hm, Nat.add_left_cancel_iff]
    by_cases hcnt : i = s.rxCnt
    · subst hcnt; rfl
    · simp only [hcnt, false_and]
  · simp only [State.rxbufAt, store_cfg, hi, and_false, if_false]

/-- A byte that fits extends the stored body by itself. -/
theorem store_rxBody {s : State} (hm : s.mem.wf = true) (hfits : s.rxCnt < s.cfg.rxbuf) (d : Byte) :
    (s.store d).rxBody (s.rxCnt + 1) = s.rxBody s.rxCnt ++ [d] := by
  have hbefore : (s.store d).rxBody s.rxCnt = s.rxBody s.rxCnt :=
    List.map_congr_left fun i hi => by
      have hne : i ≠ s.rxCnt := (List.mem_range.1 hi).ne
      simp only [store_rxbufAt hm, hne, false_and, if_false]
  have hnew : (s.store d).rxbufAt s.rxCnt = d := by
    rw [store_rxbufAt hm, if_pos ⟨rfl, hfits⟩]
  rw [← hbefore, State.rxBody, List.range_succ, List.map_append, List.map_singleton, hnew]
  rfl

/-! ### The running CRC -/

/-- The invariant says nothing of the CRC while no body is received or validated. -/
theorem received_of_no_body {s : State} (hm : s.mem.wf = true)
    (hp : s.phase = .idle ∨ s.phase = .framing ∨ s.phase = .awaitStart) : s.Received where
  canonical := hm
  crc := fun hbody => by rcases hp with e | e | e <;> rw [e] at hbody <;> simp at hbody

theorem Scheduled.received {s u : State} (hs : Scheduled s u) (h : s.Received) : u.Received := by
  obtain ⟨es, n, rfl⟩ := hs
  exact { h with }

theorem received_complete {s : State} (hm : s.mem.wf = true) (c : ErrCode) :
    (s.complete c).Received :=
  received_of_no_body hm (.inl (complete_phase s c))

theorem received_issue {s : State} (h : s.Received) (o : Op) : (s.issue o).Received := by
  rcases issue_cases s o with ⟨_, e⟩ | ⟨_, _, e⟩ | ⟨_, _, e⟩ <;> rw [e]
  · exact { h with }
  · exact received_complete (s := s.accept o) h.canonical _
  · exact received_of_no_body h.canonical (.inr (.inl rfl))

theorem received_response {s : State} (h : s.Received) (t : Byte) : (s.response t).Received := by
  rcases response_cases s t with ⟨_, e⟩ | ⟨_, e⟩ <;> rw [e]
  · rcases validate_cases s t with ⟨c, _, e⟩ | ⟨_, _, _, _, e⟩ <;> rw [e]
    · exact received_complete (s := s.publish) h.canonical c
    · exact received_complete (s := s.publish.setRxInfo s.info) h.canonical _
  · exact h

/-- A body byte goes into the CRC and, as long as the body fits, to the end of the stored body (rule
R245). A count past the depth says that the body no longer fits. -/
theorem received_store {s : State} (h : s.Received) (hp : s.phase = .recvBody) (d : Byte) :
    (s.store d).Received where
  canonical := store_mem_wf h.canonical d
  crc := fun _ hcnt => by
    rw [store_rxCnt, store_cfg] at hcnt
    have hfits : s.rxCnt < s.cfg.rxbuf := by omega
    have hnext : (s.store d).rxCnt = s.rxCnt + 1 := Nat.min_eq_left (by omega)
    rw [hnext, store_rxBody h.canonical hfits, crc16_concat, ← h.crc (.inl hp) hfits.le, store_rxCrc]

theorem received_lineRecvAll {s : State} (h : s.Received) (bs : List Byte) :
    (s.lineRecvAll bs).Received :=
  reception_keeps (P := State.Received)
    (hopen := fun _ _ h => { h with crc := fun _ _ => rfl })
    (hend := fun _ hp h => { h with crc := fun _ => h.crc (.inl hp) })
    (hesc := fun _ _ _ h => { h with })
    (hstore := fun _ d hp h => received_store h hp d) bs h

theorem received_countTick {s : State} (h : s.Received) (c : ErrCode) :
    (s.countTick c).Received := by
  rcases countTick_cases s c with ⟨_, e⟩ | ⟨_, e⟩ <;> rw [e]
  · exact received_complete (s := s.setToCnt (countUp s.toCnt)) h.canonical c
  · exact { h with }

theorem received_tick {s : State} (h : s.Received) : s.tick.Received := by
  rcases tick_cases s with ⟨_, e⟩ | ⟨_, e⟩ | ⟨_, _, e⟩ <;> rw [e]
  · exact received_countTick h _
  · exact received_countTick h _
  · exact h

/-- TX_EMIT leaves FRAMING for AWAIT_START at most (rule R210). -/
theorem received_emit {s : State} (h : s.Received) (hp : s.phase = .framing) (b : Byte) :
    (s.lineSend b).advanceTx.Received := by
  unfold State.advanceTx
  split
  · exact received_of_no_body h.canonical (.inr (.inr rfl))
  · exact received_of_no_body h.canonical (.inr (.inl hp))

/-- TXBUF is written only while IDLE, and the other memory writes are those of a body. -/
theorem Effect.received {i : Instr} {s t : State} (he : Effect i s t) (h : s.Received) :
    t.Received := by
  cases he with
  | txbuf hp k _ d => exact received_of_no_body (Memory.wf_write h.canonical) (.inl hp)
  | issue o _ => exact received_issue h o
  | response _ b => exact received_response h b
  | line _ bs => exact received_lineRecvAll h bs
  | _ => exact { h with }

/-- Settles O54: every effect of an instruction and every agent's step keeps the running CRC the CRC of
the stored body. -/
theorem stepKeepsReceived : Obligations.StepKeepsReceived := fun _ _ hs hstep =>
  step_keeps
    (hsched := fun _ _ hu h => hu.received h)
    (heffect := fun _ _ _ he h => he.received h)
    (hutx := fun _ _ h => { h with })
    (herror := fun _ h => { h with })
    (htick := fun _ h => received_tick h)
    (hreset := fun _ _ => received_of_no_body (Memory.wf_afterReset ..) (.inl rfl))
    (hemit := fun _ b hp _ _ h => received_emit h hp b) hs hstep

/-! ### A delivered byte, by phase -/

theorem exec_char (b : Byte) (s : State) : exec (.char b) s = .next (s.lineRecv b) := rfl

theorem exec_symEnd (s : State) : exec .symEnd s = .next (s.lineRecv 0x0A) := rfl

/-- Rule R247. -/
theorem lineRecv_discarded {s : State}
    (hp : s.phase = .idle ∨ s.phase = .framing ∨ s.phase = .validating) (b : Byte) :
    s.lineRecv b = s := by
  rcases hp with e | e | e <;> simp only [State.lineRecv, e]

/-- Rule R241: START ends the hunt. -/
theorem lineRecv_start {s : State} (hp : s.phase = .awaitStart) : s.lineRecv 0x0D = s.openBody := by
  simp only [State.lineRecv, hp]
  exact if_pos rfl

/-- Rule R241: the hunt discards every other byte. -/
theorem lineRecv_hunting {s : State} {b : Byte} (hp : s.phase = .awaitStart) (hb : b ≠ 0x0D) :
    s.lineRecv b = s := by
  simp only [State.lineRecv, hp]
  exact if_neg hb

/-- Rule R242, whatever the decoder's state is. -/
theorem lineRecv_end {s : State} (hp : s.phase = .recvBody) : s.lineRecv 0x0A = s.endBody := by
  simp only [State.lineRecv, hp]
  exact if_pos rfl

/-- Settles O15, phase by phase, and in a body by the decoder's state. -/
theorem deliveredByteActsByPhase : Obligations.DeliveredByteActsByPhase := by
  intro s b
  rw [exec_char]
  cases hp : s.phase with
  | idle => exact congrArg _ (lineRecv_discarded (.inl hp) b)
  | framing => exact congrArg _ (lineRecv_discarded (.inr (.inl hp)) b)
  | validating => exact congrArg _ (lineRecv_discarded (.inr (.inr hp)) b)
  | awaitStart =>
    by_cases hb : b = 0x0D
    · subst hb; rw [lineRecv_start hp]; rfl
    · rw [lineRecv_hunting hp hb]; simp only [if_neg hb]
  | recvBody =>
    by_cases hend : b = 0x0A
    · subst hend; rw [lineRecv_end hp]; rfl
    simp only [if_neg hend]
    cases he : s.rxEsc with
    | true => exact congrArg _ (lineRecv_pending hp he hend)
    | false =>
      by_cases hesc : b = 0x5E
      · subst hesc; rw [lineRecv_esc hp he, State.setRxEsc, hp]; rfl
      · rw [lineRecv_plain hp he hend hesc, if_neg hesc]; rfl

/-- A pair in AWAIT_START: its ESC is discarded and its second byte is delivered. -/
theorem lineRecvAll_pair_hunting {s : State} (hp : s.phase = .awaitStart) (y : Byte) :
    s.lineRecvAll [0x5E, y] = s.lineRecv y := by
  rw [lineRecvAll_cons, lineRecvAll_cons, lineRecvAll_nil, lineRecv_hunting hp (by decide)]

/-- Settles O16: of the bytes delivered only START is not discarded. -/
theorem huntSymbolsOpenABodyOrAreDiscarded : Obligations.HuntSymbolsOpenABodyOrAreDiscarded := by
  intro s hp
  obtain ⟨e0A, e0D, e5E⟩ := exec_canonicalPair s
  simp only [e0A, e0D, e5E, exec_escNoncanon, exec_literal, exec_symStart, exec_symEnd,
    lineRecvAll_pair_hunting hp, Host.Outcome.next.injEq]
  refine ⟨lineRecv_start hp, lineRecv_hunting hp (by decide), lineRecv_hunting hp (by decide),
    lineRecv_hunting hp (by decide), lineRecv_hunting hp (by decide),
    fun _ hy => lineRecv_hunting hp hy, lineRecv_start hp,
    fun b hb => ?literal⟩
  case literal =>
    obtain ⟨_, hcr, _⟩ := wf_literal.1 hb
    exact lineRecv_hunting hp hcr

/-- Settles O17. -/
theorem endEndsTheBodyEvenAfterEsc : Obligations.EndEndsTheBodyEvenAfterEsc := fun s hp =>
  (exec_symEnd s).trans (congrArg _ (lineRecv_end hp))

/-- Settles O19: each row delivers one byte or two, and each is discarded. -/
theorem bytesOutsideTheListeningPhasesAreDiscarded :
    Obligations.BytesOutsideTheListeningPhasesAreDiscarded := by
  intro s i hi hp
  rcases exec_line_cases hi s with ⟨b, e⟩ | ⟨b, e⟩ <;> rw [e]
  · rw [lineRecv_discarded hp]
  · rw [lineRecv_discarded hp, lineRecv_discarded hp]

/-! ### The bytes of a body -/

/-- From s to t the depths, the command and the operands a reply is compared with stay. -/
structure SameRequest (s t : State) : Prop where
  cfg : t.cfg = s.cfg
  op : t.op = s.op
  dest : t.dest = s.dest
  src : t.src = s.src
  reg : t.reg = s.reg

/-- From s on, t has received body bytes that decode to ds: they are stored as far as they fit, fed to
the CRC, and counted as far as the count goes (rules R244 and R245). -/
structure BodyGrows (s t : State) (ds : List Byte) : Prop where
  phase : t.phase = .recvBody
  request : SameRequest s t
  stored : StoredFrom s t ds
  crc : t.rxCrc = ds.foldl crcUpd s.rxCrc
  cnt : min t.rxCnt (s.cfg.rxbuf + 1) = min (s.rxCnt + ds.length) (s.cfg.rxbuf + 1)
  cap : s.rxCnt ≤ s.cfg.rxbuf + 1 → t.rxCnt ≤ s.cfg.rxbuf + 1

theorem storedFrom_of_mem_eq {s t : State} (hm : s.mem.wf = true) (h : t.mem = s.mem) :
    StoredFrom s t [] := by
  refine ⟨h ▸ hm, fun a => ?_⟩
  have hnone : ¬ (0x40 + s.rxCnt ≤ a ∧ a < 0x40 + min (s.rxCnt + 0) s.cfg.rxbuf) := by omega
  rw [h, List.length_nil, if_neg hnone]

theorem BodyGrows.refl {s : State} (hm : s.mem.wf = true) (hp : s.phase = .recvBody) :
    BodyGrows s s [] :=
  ⟨hp, ⟨rfl, rfl, rfl, rfl, rfl⟩, storedFrom_of_mem_eq hm rfl, rfl, rfl, id⟩

/-- One more byte stored after ds. -/
theorem StoredFrom.store {s u : State} {ds : List Byte} (h : StoredFrom s u ds)
    (hcfg : u.cfg = s.cfg)
    (hcnt : min u.rxCnt (s.cfg.rxbuf + 1) = min (s.rxCnt + ds.length) (s.cfg.rxbuf + 1)) (d : Byte) :
    StoredFrom s (u.store d) (ds ++ [d]) := by
  obtain ⟨hm, hread⟩ := h
  refine ⟨store_mem_wf hm d, fun a => ?_⟩
  rw [store_mem_read hm, hread, hcfg, rxbufBase, List.length_append, List.length_singleton]
  by_cases hnew : a = 0x40 + u.rxCnt ∧ u.rxCnt < s.cfg.rxbuf
  · have hidx : a - (0x40 + s.rxCnt) = ds.length := by omega
    have hin : 0x40 + s.rxCnt ≤ a ∧
        a < 0x40 + min (s.rxCnt + (ds.length + 1)) s.cfg.rxbuf := by omega
    rw [if_pos hnew, if_pos hin, hidx, List.getElem?_concat_length]
    rfl
  · rw [if_neg hnew]
    by_cases hold : 0x40 + s.rxCnt ≤ a ∧ a < 0x40 + min (s.rxCnt + ds.length) s.cfg.rxbuf
    · have hin : 0x40 + s.rxCnt ≤ a ∧
          a < 0x40 + min (s.rxCnt + (ds.length + 1)) s.cfg.rxbuf := by omega
      rw [if_pos hold, if_pos hin, List.getElem?_append_left (by omega)]
    · have hout : ¬ (0x40 + s.rxCnt ≤ a ∧
          a < 0x40 + min (s.rxCnt + (ds.length + 1)) s.cfg.rxbuf) := by omega
      rw [if_neg hold, if_neg hout]

theorem BodyGrows.setRxEsc {s u : State} {ds : List Byte} (h : BodyGrows s u ds) (e : Bool) :
    BodyGrows s (u.setRxEsc e) ds :=
  { h with request := { h.request with } }

theorem BodyGrows.store {s u : State} {ds : List Byte} (h : BodyGrows s u ds) (d : Byte) :
    BodyGrows s (u.store d) (ds ++ [d]) where
  phase := h.phase
  request := { h.request with }
  stored := h.stored.store h.request.cfg h.cnt d
  crc := by rw [store_rxCrc, h.crc, List.foldl_append]; rfl
  cnt := by
    have hcnt := h.cnt
    rw [store_rxCnt, h.request.cfg, List.length_append, List.length_singleton]
    omega
  cap := fun _ => by rw [store_rxCnt, h.request.cfg]; exact Nat.min_le_right ..

/-- BODY_BYTE takes one step of the decoder and stores what it gives. -/
theorem BodyGrows.bodyByte {s u : State} {ds : List Byte} (h : BodyGrows s u ds) (b : Byte) :
    BodyGrows s (u.bodyByte b) (ds ++ (unescapeStep u.rxEsc b).2.toList) ∧
      (u.bodyByte b).rxEsc = (unescapeStep u.rxEsc b).1 := by
  unfold State.bodyByte
  rcases unescapeStep u.rxEsc b with ⟨e, _ | d⟩
  · exact ⟨by simpa using h.setRxEsc e, rfl⟩
  · exact ⟨(h.setRxEsc e).store d, rfl⟩

/-- Bytes without END are body bytes, decoded from the decoder's state on: by induction on them. -/
theorem BodyGrows.lineRecvAll {s u : State} {ds : List Byte} (h : BodyGrows s u ds) {bs : List Byte}
    (hbs : 0x0A ∉ bs) :
    BodyGrows s (u.lineRecvAll bs) (ds ++ (unescapeFrom u.rxEsc bs).1) ∧
      (u.lineRecvAll bs).rxEsc = (unescapeFrom u.rxEsc bs).2 := by
  induction bs generalizing u ds with
  | nil => exact ⟨by simpa using h, rfl⟩
  | cons b bs ih =>
    obtain ⟨hb, hrest⟩ := List.ne_and_not_mem_of_not_mem_cons hbs
    obtain ⟨hgrow, hesc⟩ := h.bodyByte b
    have hall := ih hgrow hrest
    rw [hesc, List.append_assoc] at hall
    rw [lineRecvAll_cons, lineRecv_body h.phase hb.symm, unescapeFrom_cons]
    exact hall

/-- What bytes without END leave in memory: the bytes they decode to. -/
theorem lineRecvAll_storedFrom {s : State} (hm : s.mem.wf = true) (hp : s.phase = .recvBody)
    {bs : List Byte} (hbs : 0x0A ∉ bs) :
    StoredFrom s (s.lineRecvAll bs) (unescapeFrom s.rxEsc bs).1 :=
  ((BodyGrows.refl hm hp).lineRecvAll hbs).1.stored

theorem lineRecv_storedFrom {s : State} (hm : s.mem.wf = true) (hp : s.phase = .recvBody)
    (b : Byte) : StoredFrom s (s.lineRecv b)
      (if b = 0x0A then [] else if s.rxEsc = true then [b - 0x40]
        else if b = 0x5E then [] else [b]) := by
  by_cases hend : b = 0x0A
  · subst hend
    rw [lineRecv_end hp, if_pos rfl]
    exact storedFrom_of_mem_eq hm rfl
  · have hstored := lineRecvAll_storedFrom hm hp (bs := [b])
      (mt List.mem_singleton.1 (Ne.symm hend))
    have hdecoded : (unescapeFrom s.rxEsc [b]).1 =
        if s.rxEsc = true then [b - 0x40] else if b = 0x5E then [] else [b] := by
      cases s.rxEsc with
      | true => rfl
      | false =>
        by_cases hesc : b = 0x5E
        · subst hesc; rfl
        · rw [unescapeFrom_cons, unescapeStep_literal hesc, if_neg hesc]; rfl
    rw [if_neg hend, ← hdecoded]
    exact hstored

theorem lineRecvAll_pair_storedFrom {s : State} (hm : s.mem.wf = true) (hp : s.phase = .recvBody)
    {y : Byte} (hy : y ≠ endByte) :
    StoredFrom s (s.lineRecvAll [0x5E, y])
      (if s.rxEsc = false then [y - 0x40] else if y = 0x5E then [0x1E] else [0x1E, y]) := by
  have hend : (0x0A : Byte) ∉ [0x5E, y] :=
    List.not_mem_cons_of_ne_of_not_mem (by decide) (mt List.mem_singleton.1 (Ne.symm hy))
  have hstored := lineRecvAll_storedFrom hm hp hend
  have hdecoded : (unescapeFrom s.rxEsc [0x5E, y]).1 =
      if s.rxEsc = false then [y - 0x40] else if y = 0x5E then [0x1E] else [0x1E, y] := by
    cases s.rxEsc with
    | false => rfl
    | true =>
      by_cases hesc : y = 0x5E
      · subst hesc; rfl
      · rw [unescapeFrom_cons, unescapeStep_pending, unescapeFrom_cons, unescapeStep_literal hesc,
          if_neg hesc]
        rfl
  rw [← hdecoded]
  exact hstored

/-- Settles O20: a row delivers one byte, or a pair without END. -/
theorem storedByteChangesOneByteOfMemory : Obligations.StoredByteChangesOneByteOfMemory := by
  intro s hm hp
  have hbyte := lineRecv_storedFrom hm hp
  have hpair := fun y => lineRecvAll_pair_storedFrom hm hp (y := y)
  obtain ⟨e0A, e0D, e5E⟩ := exec_canonicalPair s
  refine ⟨fun b => ⟨_, exec_char b s, hbyte b⟩, fun b hb => ⟨_, exec_literal b s, ?literal⟩,
    ⟨_, exec_symStart s, hbyte 0x0D⟩, ⟨_, exec_symEnd s, hbyte 0x0A⟩, ⟨_, e0A, ?esc0A⟩,
    ⟨_, e0D, ?esc0D⟩, ⟨_, e5E, ?esc5E⟩,
    fun y hy => ⟨_, exec_escNoncanon y s, hpair y (escNoncanon_ne_endByte hy)⟩⟩
  case literal =>
    obtain ⟨hend, _, hesc⟩ := wf_literal.1 hb
    have hb := hbyte b
    rwa [if_neg hend, if_neg hesc] at hb
  case esc0A => cases he : s.rxEsc <;> simpa [he] using hpair 0x4A (by decide)
  case esc0D => cases he : s.rxEsc <;> simpa [he] using hpair 0x4D (by decide)
  case esc5E => cases he : s.rxEsc <;> simpa [he] using hpair 0x9E (by decide)

/-! ### Validation -/

/-- Rule R256, written out. -/
theorem rxInfoByte_eq : ∀ dst src reg : Bool, rxInfoByte dst src reg =
    (if dst then 1 else 0 : Byte) ||| ((if src then 1 else 0 : Byte) <<< 1)
      ||| ((if reg then 1 else 0 : Byte) <<< 2) ||| 0x08 := by decide

theorem errCode_toByte_eq_zero (c : ErrCode) : c.toByte = 0x00 ↔ c = .none := by
  cases c <;> decide

/-- Rules R250 and R345: what completion after validation leaves, written out. -/
theorem complete_validated_eq (s : State) (c : ErrCode) (v : Byte) :
    (s.publish.setRxInfo v).complete c = validatedState s c.toByte v := by
  have herr : decide (c.toByte ≠ 0x00) = decide (c ≠ .none) :=
    decide_eq_decide.2 (not_congr (errCode_toByte_eq_zero c))
  rw [validatedState, herr]
  rfl

theorem complete_publish_eq (s : State) (c : ErrCode) :
    s.publish.complete c = validatedState s c.toByte s.rxInfo :=
  complete_validated_eq s c s.rxInfo

/-- Rule R254, written out. -/
theorem validatedState_classify (s : State) (o : Op) (t v : Byte) :
    validatedState s (classify o t).toByte v =
      if o = .read ∧ t = 0x08 then validatedState s 0x00 v
      else if o = .write ∧ t = 0x03 then validatedState s 0x00 v
      else if t = 0x00 then validatedState s 0x08 v
      else if t = 0x01 then validatedState s 0x09 v
      else if t = 0x02 then validatedState s 0x0A v
      else validatedState s 0x0B v := by
  unfold classify
  split_ifs <;> rfl

/-- Rule R250 in the model's words and written out: the same checks in the same order. -/
theorem validate_eq_verdictState (s : State) (t : Byte) : s.validate t = verdictState s t := by
  simp only [State.validate, verdictState, complete_publish_eq, complete_validated_eq,
    validatedState_classify, State.info, rxInfoByte_eq]
  rfl

theorem response_validating {s : State} (hp : s.phase = .validating) (t : Byte) :
    s.response t = verdictState s t :=
  (if_pos hp).trans (validate_eq_verdictState s t)

/-- An RSP row is a response of its type (notes/assumptions/11). -/
theorem exec_response {i : Instr} (h : i.format = .rsp) (s : State) :
    ∃ t, exec i s = .next (s.response t) := by
  cases i with
  | rspNotUnderstood => exact ⟨_, rfl⟩
  | rspCrcError => exact ⟨_, rfl⟩
  | rspBusy => exact ⟨_, rfl⟩
  | rspWriteAck => exact ⟨_, rfl⟩
  | rspReadAck => exact ⟨_, rfl⟩
  | rspReserved t => exact ⟨t, rfl⟩
  | _ => cases h

/-- Settles O21: each row is a response of its type. -/
theorem responseRowsValidate : Obligations.ResponseRowsValidate := by
  constructor
  · intro s hp
    have hrow (t : Byte) : (.next (s.response t) : Result) = .next (verdictState s t) :=
      congrArg _ (response_validating hp t)
    exact ⟨hrow 0x00, hrow 0x01, hrow 0x02, hrow 0x03, hrow 0x08, fun t _ => hrow t⟩
  · intro s i hi hp
    obtain ⟨t, e⟩ := exec_response hi s
    rw [e, State.response, if_neg hp]

/-- The row decoded from a type byte is a response of that type. -/
theorem exec_decodeRsp (t : Byte) (s : State) : exec (decodeRsp t) s = .next (s.response t) := by
  have hrow {n : Nat} (hn : n < 256) (h : t.toNat = n) : t = BitVec.ofNat 8 n :=
    BitVec.eq_of_toNat_eq (h.trans ((BitVec.toNat_ofNat ..).trans (Nat.mod_eq_of_lt hn)).symm)
  unfold decodeRsp
  split
  case h_1 h => rw [hrow (by decide) h]; rfl
  case h_2 h => rw [hrow (by decide) h]; rfl
  case h_3 h => rw [hrow (by decide) h]; rfl
  case h_4 h => rw [hrow (by decide) h]; rfl
  case h_5 h => rw [hrow (by decide) h]; rfl
  case h_6 => rfl

/-- VALIDATE, rule R250. -/
theorem step_seq_validating {s : State} {es : List Event} (ha : s.agenda = .move .seq :: es)
    (hp : s.phase = .validating) : step s = .next ((s.setAgenda es).validate (s.rxbufAt 2)) := by
  obtain ⟨_, _, _, hseq⟩ := stepRunsTheDecodedInstruction s es
  have hp' : (s.setAgenda es).phase = .validating := hp
  exact (hseq ha hp).trans ((exec_decodeRsp ..).trans (congrArg _ (if_pos hp')))

/-- Settles O22. -/
theorem validateStepReportsTheFirstCodeThatApplies :
    Obligations.ValidateStepReportsTheFirstCodeThatApplies := fun _ _ ha hp =>
  (step_seq_validating ha hp).trans (congrArg _ (validate_eq_verdictState ..))

/-! ### Success -/

/-- The response type a command expects (rules R106 and R254). -/
def expectedType : Op → Byte
  | .read => 0x08
  | .write => 0x03

/-- Rule R254 gives success for the expected type only. -/
theorem classify_eq_none_iff (o : Op) (t : Byte) : classify o t = .none ↔ t = expectedType o := by
  cases o with
  | read => simp [classify, expectedType, ite_eq_iff]
  | write => simp [classify, expectedType, ite_eq_iff]

/-- Validation that leaves ERRCODE 0x00 has passed all checks (rule R250). -/
theorem validate_success {s : State} {t : Byte} (h : (s.validate t).errcode = 0x00) :
    s.rxCnt ≤ s.cfg.rxbuf ∧ 6 ≤ s.rxCnt ∧ s.rxCrc = 0x0000 ∧ t = expectedType s.op ∧
      s.validate t = (s.publish.setRxInfo s.info).complete .none := by
  rcases validate_cases s t with ⟨c, hc, e⟩ | ⟨_, hcnt, hlen, hcrc, e⟩ <;> rw [e] at h
  · rw [complete_errcode, errCode_toByte_eq_zero] at h
    rcases hc with rfl | rfl | rfl | rfl <;> cases h
  · rw [complete_errcode, errCode_toByte_eq_zero] at h
    rw [h] at e
    exact ⟨hcnt, hlen, hcrc, (classify_eq_none_iff ..).1 h, e⟩

/-- The depth of RXBUF fits a byte, so RX_BLEN is the count of a body that fits. -/
theorem publish_rxBlen_toNat {s : State} (hcfg : s.cfg.wf = true) (hcnt : s.rxCnt ≤ s.cfg.rxbuf) :
    s.publish.rxBlen.toNat = s.rxCnt := by
  simp only [Config.Params.wf, Bool.and_eq_true, decide_eq_true_eq] at hcfg
  rw [publish_rxBlen, Nat.min_eq_left hcnt, BitVec.toNat_ofNat, Nat.mod_eq_of_lt (by omega)]

/-- Settles O23: success has passed the checks, and the CRC they look at is that of the stored body. -/
theorem successMeansIntactBodyOfTheExpectedType :
    Obligations.SuccessMeansIntactBodyOfTheExpectedType := by
  intro s t es hlegal hreceived ha hp hstep herr
  rw [step_seq_validating ha hp] at hstep
  cases hstep
  obtain ⟨hcnt, hlen, hcrc, htype, e⟩ := validate_success herr
  have hblen : ((s.setAgenda es).publish).rxBlen.toNat = s.rxCnt :=
    publish_rxBlen_toNat (s := s.setAgenda es) hlegal.cfg hcnt
  have hbody : s.rxCrc = crc16 (s.rxBody s.rxCnt) := hreceived.crc (.inr hp) hcnt
  rw [e]
  refine ⟨hlen.trans_eq hblen.symm, ?_, htype⟩
  exact (congrArg (fun n => crc16 (s.rxBody n)) hblen).trans (hbody.symm.trans hcrc)

/-- A body that passes the checks and has the expected type succeeds. -/
theorem validate_of_intact {s : State} {t : Byte} (hesc : s.rxEsc = false)
    (hcnt : s.rxCnt ≤ s.cfg.rxbuf) (hlen : 6 ≤ s.rxCnt) (hcrc : s.rxCrc = 0x0000)
    (htype : t = expectedType s.op) :
    s.validate t = (s.publish.setRxInfo s.info).complete .none := by
  have hclass : classify s.op t = .none := (classify_eq_none_iff ..).2 htype
  simp only [State.validate, hesc, Bool.false_eq_true, if_false, if_neg (Nat.not_lt.2 hcnt),
    if_neg (Nat.not_lt.2 hlen), hcrc, ne_eq, not_true_eq_false, hclass]

/-! ### A whole reception -/

theorem bodyByte_setAgenda (s : State) (es : List Event) (b : Byte) :
    (s.setAgenda es).bodyByte b = (s.bodyByte b).setAgenda es := by
  unfold State.bodyByte
  rw [setAgenda_rxEsc]
  rcases unescapeStep s.rxEsc b with ⟨e, _ | d⟩ <;> rfl

/-- A delivered byte neither reads nor writes what is lined up. -/
theorem lineRecv_setAgenda (s : State) (es : List Event) (b : Byte) :
    (s.setAgenda es).lineRecv b = (s.lineRecv b).setAgenda es := by
  cases hp : s.phase with
  | idle => simp only [State.lineRecv, setAgenda_phase, hp]
  | framing => simp only [State.lineRecv, setAgenda_phase, hp]
  | validating => simp only [State.lineRecv, setAgenda_phase, hp]
  | awaitStart =>
    simp only [State.lineRecv, setAgenda_phase, hp]
    split <;> rfl
  | recvBody =>
    simp only [State.lineRecv, setAgenda_phase, hp]
    split
    · rfl
    · exact bodyByte_setAgenda s es b

theorem lineRecvAll_setAgenda (s : State) (es : List Event) (bs : List Byte) :
    (s.setAgenda es).lineRecvAll bs = (s.lineRecvAll bs).setAgenda es := by
  induction bs generalizing s with
  | nil => rfl
  | cons b bs ih => rw [lineRecvAll_cons, lineRecv_setAgenda, ih, lineRecvAll_cons]

/-- LINE's step, rule R295. -/
theorem step_line_byte {s : State} {es : List Event} {b : Byte}
    (ha : s.agenda = .move (.line (.byte b)) :: es) :
    step s = .next ((s.lineRecv b).setAgenda es) := by
  obtain ⟨_, _, hline, _⟩ := stepRunsTheDecodedInstruction s es
  exact (hline b ha).trans ((exec_char ..).trans (congrArg _ (lineRecv_setAgenda s es b)))

/-- Bytes delivered one a step are bytes delivered one after the other. -/
theorem run_lineEvents {s : State} {es : List Event} (bs : List Byte)
    (ha : s.agenda = lineEvents bs ++ es) (k : Nat) :
    s.run (bs.length + k) = ((s.lineRecvAll bs).setAgenda es).run k := by
  induction bs generalizing s with
  | nil =>
    have hs : s.agenda = es := ha
    subst hs
    rw [List.length_nil, Nat.zero_add]
    rfl
  | cons b bs ih =>
    have hlen : (b :: bs).length + k = bs.length + k + 1 := by rw [List.length_cons]; omega
    rw [hlen, run_succ_of_step (step_line_byte ha), ih rfl, lineRecvAll_setAgenda]
    rfl

/-- START, bytes without END, and END, from AWAIT_START, one a step: the body opens empty, grows by what
the bytes decode to, and ends. -/
theorem run_framed {s : State} {es : List Event} {raw : List Byte}
    (ha : s.agenda = lineEvents ([0x0D] ++ raw ++ [0x0A]) ++ es) (hm : s.mem.wf = true)
    (hp : s.phase = .awaitStart) (hraw : 0x0A ∉ raw) :
    ∃ u : State, BodyGrows s.openBody u (unescape raw).1 ∧ u.rxEsc = (unescape raw).2 ∧
      ∀ k, s.run (([0x0D] ++ raw ++ [0x0A]).length + k) = (u.endBody.setAgenda es).run k := by
  have hopen : BodyGrows s.openBody s.openBody [] := .refl hm rfl
  obtain ⟨hgrow, hesc⟩ := hopen.lineRecvAll hraw
  refine ⟨s.openBody.lineRecvAll raw, hgrow, hesc, fun k => ?_⟩
  rw [run_lineEvents _ ha]
  simp only [lineRecvAll_append, lineRecvAll_cons, lineRecvAll_nil, lineRecv_start hp,
    lineRecv_end hgrow.phase]

section Body

variable {s u : State} {ds : List Byte}

/-- From an empty body on the count is the length, saturating. -/
theorem BodyGrows.rxCnt_eq (h : BodyGrows s.openBody u ds) :
    u.rxCnt = min ds.length (s.cfg.rxbuf + 1) := by
  have hcnt := h.cnt
  have hcap := h.cap (Nat.zero_le _)
  rw [openBody_rxCnt, openBody_cfg] at hcnt
  rw [openBody_cfg] at hcap
  omega

/-- From an empty body on RXBUF holds the decoded bytes as far as they fit. -/
theorem BodyGrows.getElem?_eq (h : BodyGrows s.openBody u ds) {i : Nat}
    (hi : i < min ds.length s.cfg.rxbuf) : ds[i]? = some (u.rxbufAt i) := by
  obtain ⟨_, hread⟩ := h.stored
  have hfits : i < u.cfg.rxbuf := by rw [h.request.cfg, openBody_cfg]; omega
  have hin : 0x40 + 0 ≤ 0x40 + i ∧ 0x40 + i < 0x40 + min (0 + ds.length) s.cfg.rxbuf := by omega
  have hlt : i < ds.length := by omega
  have hidx : 0x40 + i - (0x40 + 0) = i := by omega
  have hcell := hread (0x40 + i)
  rw [openBody_rxCnt, openBody_cfg, if_pos hin, hidx, List.getElem?_eq_getElem hlt,
    Option.getD_some] at hcell
  rw [State.rxbufAt, if_pos hfits, rxbufBase, hcell, List.getElem?_eq_getElem hlt]

end Body

/-- Settles O46: the steps deliver the bytes, and the body they leave is the unescaped one. -/
theorem receptionAgreesWithUnescape : Obligations.ReceptionAgreesWithUnescape := by
  intro s raw hm hp hraw
  obtain ⟨u, hgrow, hesc, hrun⟩ :=
    run_framed (s := s.offer (lineEvents ([0x0D] ++ raw ++ [0x0A]))) rfl hm hp hraw
  have hlen : ([0x0D] ++ raw ++ [0x0A]).length + 0 = raw.length + 2 := by simp
  have hdone := (hrun 0).trans (run_zero _)
  rw [hlen] at hdone
  exact ⟨_, hdone, rfl, hesc, hgrow.crc, hgrow.rxCnt_eq, fun _ hi => hgrow.getElem?_eq hi, rfl⟩

/-- Rule R256: RX_INFO of a reply whose addresses and register are those of the request. -/
theorem info_of_match {s : State} (hsrc : s.rxbufAt 0 = s.src) (hdest : s.rxbufAt 1 = s.dest)
    (hreg : s.rxbufAt 3 = s.reg) : s.info = 0x0F := by
  rw [State.info, hsrc, hdest, hreg, beq_self_eq_true, beq_self_eq_true, beq_self_eq_true]
  rfl

/-- In u, which answers the request of s, RXBUF holds the whole body and the CRC register its residue
0x0000 (rule R174). -/
structure IntactBody (s u : State) (body : List Byte) : Prop where
  request : SameRequest s u
  cnt : u.rxCnt = body.length
  crc : u.rxCrc = 0x0000
  stored : ∀ i, i < body.length → body[i]? = some (u.rxbufAt i)

/-- The byte of RXBUF at an index at which the byte of the body is known. -/
theorem IntactBody.rxbufAt_eq {s u : State} {body : List Byte} (h : IntactBody s u body) {i : Nat}
    {b : Byte} (hb : body[i]? = some b) : u.rxbufAt i = b := by
  obtain ⟨hi, _⟩ := List.getElem?_eq_some_iff.1 hb
  exact Option.some.inj ((h.stored i hi).symm.trans hb)

/-- A framed body that fits RXBUF, has residue 0x0000 and the expected type is delivered, validated and
found good (rules R248 and R250). -/
theorem run_intact_reply {s : State} {es : List Event} {body : List Byte}
    (ha : s.agenda = lineEvents (frame body) ++ .move .seq :: es) (hm : s.mem.wf = true)
    (hp : s.phase = .awaitStart) (hlen : 6 ≤ body.length) (hfit : body.length ≤ s.cfg.rxbuf)
    (hcrc : crc16 body = 0x0000) (htype : body[2]? = some (expectedType s.op)) :
    ∃ u : State, IntactBody s u body ∧ s.run ((frame body).length + 1) =
      .next ((u.publish.setRxInfo u.info).complete .none) := by
  obtain ⟨v, hgrow, hesc, hrun⟩ := run_framed ha hm hp (delimiter_not_mem_escape (.inl rfl) body)
  rw [unescape_escape] at hgrow hesc
  have hcnt : v.rxCnt = body.length :=
    hgrow.rxCnt_eq.trans (Nat.min_eq_left (Nat.le_succ_of_le hfit))
  have hcfg : v.cfg = s.cfg := hgrow.request.cfg
  have hintact : IntactBody s (v.endBody.setAgenda es) body :=
    ⟨{ hgrow.request with }, hcnt, hgrow.crc.trans hcrc,
      fun i hi => hgrow.getElem?_eq (Nat.lt_min.2 ⟨hi, hi.trans_le hfit⟩)⟩
  have hfit' : v.rxCnt ≤ v.cfg.rxbuf := by rwa [hcnt, hcfg]
  have hvalid := validate_of_intact (s := v.endBody.setAgenda es) hesc hfit'
    (hlen.trans_eq hcnt.symm) hintact.crc
    ((hintact.rxbufAt_eq htype).trans (congrArg expectedType hintact.request.op.symm))
  refine ⟨_, hintact, (hrun 1).trans ?_⟩
  rw [run_succ_of_step (step_seq_validating rfl rfl), run_zero]
  exact congrArg _ hvalid

/-- The body of a good reply with payload p, rules R106 and R108: that of a request with the addresses
swapped and the expected type as its code. -/
def replyBody (s : State) (p : List Byte) : List Byte :=
  requestBody s.src s.dest (expectedType s.op) s.reg p

theorem replyBody_length (s : State) (p : List Byte) : (replyBody s p).length = 6 + p.length :=
  requestBody_length ..

/-- Rule R174 for a reply. -/
theorem crc16_replyBody (s : State) (p : List Byte) : crc16 (replyBody s p) = 0x0000 := by
  rw [replyBody, requestBody, crc16_append, foldl_crcUpd_crcTrailer]

theorem replyBody_payload (s : State) {p : List Byte} {i : Nat} (hi : i < p.length) :
    (replyBody s p)[4 + i]? = p[i]? := by
  rw [Nat.add_comm]
  exact List.getElem?_append_left (l₁ := p) hi

/-- Settles O49: the reply is intact, and its bytes are those the request is compared with. -/
theorem goodReplySucceeds : Obligations.GoodReplySucceeds := by
  intro s p hcfg hm hp hfit head c reply
  have hreply : reply = frame (replyBody s p) := by
    rw [replyBody, requestBody, crcTrailer_eq]
    rfl
  rw [hreply]
  have hlen := replyBody_length s p
  have hagenda : (s.offer (lineEvents (frame (replyBody s p)) ++ [.move .seq])).agenda =
      lineEvents (frame (replyBody s p)) ++ .move .seq :: s.agenda := List.append_assoc ..
  obtain ⟨u, hu, hrun⟩ := run_intact_reply hagenda hm hp (by omega) (hlen.trans_le hfit)
    (crc16_replyBody s p) rfl
  obtain ⟨hcfg', _, hdest, hsrc, hreg⟩ := hu.request
  have hinfo : u.info = 0x0F := info_of_match ((hu.rxbufAt_eq rfl).trans hsrc.symm)
    ((hu.rxbufAt_eq rfl).trans hdest.symm) ((hu.rxbufAt_eq rfl).trans hreg.symm)
  have hfit' : u.rxCnt ≤ u.cfg.rxbuf := by rw [hu.cnt, hcfg', hlen]; exact hfit
  have hblen : u.publish.rxBlen.toNat = u.rxCnt := publish_rxBlen_toNat (hcfg' ▸ hcfg) hfit'
  exact ⟨_, hrun, rfl, rfl, rfl, rfl, hu.crc, hinfo, hblen.trans (hu.cnt.trans hlen), fun i hi =>
    (replyBody_payload s hi).symm.trans (hu.stored (4 + i) (by omega))⟩

end Sys2Proof.Machine
end

section
/-!
PROOFS. The UART line interface (spec/44_uart.md): the steps of the transmitter and of a framing error
(rules R294 and R296), and the levels of the pin uart_tx (rules R290 and R291).
-/

namespace Sys2Proof.Machine

/-! ### A character completed, and a character dropped -/

/-- LINE_FRAMING_ERROR, rule R296. -/
theorem step_line_framingError {s : State} {es : List Event}
    (ha : s.agenda = .move (.line .framingError) :: es) :
    step s = .next (s.setAgenda es).framingError := by
  have hf : fetch s = .agent .framingError (s.setAgenda es) := fetch_of_agenda_move ha
  rw [step_of_fetch_agent hf, runAgent]

/-- Settles O28: each event is fetched as its agent's step, whatever the phase. -/
theorem transmitterAndFramingErrorSteps : Obligations.TransmitterAndFramingErrorSteps := by
  intro s es
  constructor
  · intro ha hb
    exact step_utx_busy ha hb
  · intro ha
    exact step_line_framingError ha

/-! ### The levels of uart_tx -/

/-- Rule R293: the pin carries the character handed over. -/
theorem uartTx_of_busy {s : State} (hb : s.utxBusy = true) (k : Nat) :
    s.uartTx k = charLevel s.utxByte k :=
  if_pos hb

/-- Rule R290. -/
theorem uartTx_of_free {s : State} (hb : s.utxBusy = false) (k : Nat) : s.uartTx k = true :=
  if_neg (Bool.eq_false_iff.1 hb)

theorem charLevel_start (b : Byte) : charLevel b 0 = false := charWord_startBit b

theorem charLevel_stop (b : Byte) : charLevel b 9 = true := charWord_stopBit b

/-- The character's word is sent from its high end, and holds the byte with bit 0 at that end. -/
theorem charLevel_data (b : Byte) {k : Nat} (hk : k < 8) : charLevel b (k + 1) = b.getLsbD k := by
  have hpos : 9 - (k + 1) ≠ 0 := by omega
  have hrev : 7 - (9 - (k + 1) - 1) = k := by omega
  rw [charLevel, getLsbD_charWord, if_neg hpos, getLsbD_lsbFirst _ (by omega), hrev]

/-- Settles O29: a busy transmitter drives the levels of its character, a free one the idle level. -/
theorem transmitPinCarriesTheCharacter : Obligations.TransmitPinCarriesTheCharacter := by
  intro s
  constructor
  · intro hb
    refine ⟨?start, ?data, ?stop⟩
    case start => rw [uartTx_of_busy hb, charLevel_start]
    case data => intro k hk; rw [uartTx_of_busy hb, charLevel_data _ hk]
    case stop => rw [uartTx_of_busy hb, charLevel_stop]
  · exact uartTx_of_free

end Sys2Proof.Machine
end

section
/-!
PROOFS. The host bus (spec/45_host_bus.md): a read replies with the byte of its address (rule R310), and
what a write does by its address and the phase: it is ignored (rule R312), rejected (rule R313) or stored
(rules R314 to R316).
-/

namespace Sys2Proof.Machine

/-! ### Reads -/

/-- Rule R310: the read decoded at an address is the host read of that address. -/
theorem exec_decodeBusRead (a : HostAddr) (s : State) :
    exec (decodeBusRead a) s = hostRead a s := by
  rcases Nat.lt_or_ge a.toNat 0x20 with hreg | hbuf
  case inl =>
    have hrow : ∀ n < 0x20, exec (decodeBusRead (BitVec.ofNat 7 n)) s =
        hostRead (BitVec.ofNat 7 n) s := by
      intro n hn
      interval_cases n <;> rfl
    have h := hrow a.toNat hreg
    rwa [BitVec.ofNat_toNat, BitVec.setWidth_eq] at h
  case inr =>
    rw [decodeBusRead_buffer hbuf]
    split
    · next htx => exact congrArg (hostRead · s) (txbufAddr_setWidth hbuf htx)
    · next hrx => exact congrArg (hostRead · s) (rxbufAddr_setWidth (Nat.not_lt.1 hrx))

/-- A host read of a replies with the byte that stands there. -/
theorem hostRead_eq (a : HostAddr) {s : State} {v : Byte} (h : s.hostByte a = v) :
    hostRead a s = .next (s.pushReply v) := by
  rw [hostRead, h]

/-- Rule R310: from 0x20 on stand the bytes of the buffers. -/
theorem hostByte_buffer {a : HostAddr} (s : State) (h : 0x20 ≤ a.toNat) : s.hostByte a =
    if a.toNat < 0x40 then s.txbufAt (a.toNat - 0x20) else s.rxbufAt (a.toNat - 0x40) := by
  unfold State.hostByte
  split
  case h_20 => exact if_neg (Nat.not_lt.2 h)
  all_goals omega

theorem hostByte_txbufAddr (s : State) (i : BitVec 5) :
    s.hostByte (txbufAddr i) = s.txbufAt i.toNat := by
  have hi := i.isLt
  rw [hostByte_buffer s (by rw [txbufAddr_toNat]; omega), txbufAddr_toNat, if_pos (by omega),
    Nat.add_sub_cancel_left]

theorem hostByte_rxbufAddr (s : State) (i : BitVec 6) :
    s.hostByte (rxbufAddr i) = s.rxbufAt i.toNat := by
  rw [hostByte_buffer s (by rw [rxbufAddr_toNat]; omega), rxbufAddr_toNat, if_neg (by omega),
    Nat.add_sub_cancel_left]

/-- Rule R35: the fields of STATUS, each shifted to its place. -/
theorem statusByte_eq_or (s : State) : s.statusByte =
    (s.phase.code.setWidth 8 <<< 5) ||| ((BitVec.ofBool s.lineErr).setWidth 8 <<< 4) |||
      ((BitVec.ofBool s.rej).setWidth 8 <<< 3) ||| ((BitVec.ofBool s.err).setWidth 8 <<< 2) |||
      ((BitVec.ofBool s.done).setWidth 8 <<< 1) ||| (BitVec.ofBool s.busy).setWidth 8 := by
  apply BitVec.eq_of_getLsbD_eq
  intro k hk
  simp only [State.statusByte, BitVec.getLsbD_append, BitVec.getLsbD_or, BitVec.getLsbD_shiftLeft,
    BitVec.getLsbD_setWidth, BitVec.getLsbD_ofBool]
  interval_cases k <;> simp

/-- Settles O1: every row is the host read of its address, so only the byte that stands there is left to
be named. -/
theorem readsReplyAndChangeNothingElse : Obligations.ReadsReplyAndChangeNothingElse := by
  intro s
  exact ⟨fun a => ⟨_, decode_busRead a [], exec_decodeBusRead a s⟩, rfl, rfl, rfl, rfl,
    hostRead_eq 0x00 rfl, hostRead_eq 0x01 rfl, hostRead_eq 0x02 (statusByte_eq_or s),
    hostRead_eq 0x03 rfl, hostRead_eq 0x04 rfl, hostRead_eq 0x05 rfl, hostRead_eq 0x06 rfl,
    hostRead_eq 0x07 rfl, hostRead_eq 0x08 rfl,
    hostRead_eq 0x09 rfl, hostRead_eq 0x0A (loByte_eq_extract s.txCrc),
    hostRead_eq 0x0B rfl, hostRead_eq 0x0C (loByte_eq_extract s.rxRes),
    hostRead_eq 0x0D rfl, hostRead_eq 0x0E (loByte_eq_extract s.toLimit),
    hostRead_eq 0x0F rfl, hostRead_eq 0x10 (loByte_eq_extract s.crcAcc),
    hostRead_eq 0x11 rfl, hostRead_eq 0x12 rfl, hostRead_eq 0x13 rfl, hostRead_eq 0x14 rfl,
    hostRead_eq 0x15 rfl, hostRead_eq 0x16 rfl, hostRead_eq 0x17 rfl, hostRead_eq 0x18 rfl,
    hostRead_eq 0x19 rfl, hostRead_eq 0x1A rfl, hostRead_eq 0x1B rfl, hostRead_eq 0x1C rfl,
    hostRead_eq 0x1D rfl, hostRead_eq 0x1E rfl, hostRead_eq 0x1F rfl,
    fun i => hostRead_eq (txbufAddr i) (hostByte_txbufAddr s i),
    fun i => hostRead_eq (rxbufAddr i) (hostByte_rxbufAddr s i)⟩

/-! ### Ignored writes -/

/-- Rule R312 at an index of TXBUF that does not exist. -/
theorem exec_wrTxbuf_reserved {s : State} {i : BitVec 5} (d : Byte) (hi : s.cfg.txbuf ≤ i.toNat) :
    exec (.wrTxbuf i d) s = .next s :=
  if_neg (Nat.not_lt.2 hi)

/-- Settles O2: every row but WR_TXBUF is `ignoreWrite`, which looks at neither the byte nor the phase. -/
theorem writesToReadOnlyOrReservedAddressesChangeNothing :
    Obligations.WritesToReadOnlyOrReservedAddressesChangeNothing := fun _ d =>
  ⟨rfl, rfl, rfl, rfl, rfl, rfl, rfl, rfl, rfl, rfl, rfl, rfl, rfl, rfl, rfl, rfl, rfl, rfl, rfl, rfl,
    fun _ => rfl, fun _ => exec_wrTxbuf_reserved d⟩

/-! ### Operand writes -/

theorem exec_wrDest (d : Byte) (s : State) :
    exec (.wrDest d) s = operandWrite (fun t => t.setDest d) s := rfl

theorem exec_wrSrc (d : Byte) (s : State) :
    exec (.wrSrc d) s = operandWrite (fun t => t.setSrc d) s := rfl

theorem exec_wrReg (d : Byte) (s : State) :
    exec (.wrReg d) s = operandWrite (fun t => t.setReg d) s := rfl

theorem exec_wrTxLen (d : Byte) (s : State) :
    exec (.wrTxLen d) s = operandWrite (fun t => t.setTxLen d) s := rfl

theorem exec_wrToLimitHi (d : Byte) (s : State) :
    exec (.wrToLimitHi d) s = operandWrite (fun t => t.setToLimitHi d) s := rfl

theorem exec_wrToLimitLo (d : Byte) (s : State) :
    exec (.wrToLimitLo d) s = operandWrite (fun t => t.setToLimitLo d) s := rfl

theorem exec_wrTxbuf {s : State} {i : BitVec 5} (d : Byte) (hi : i.toNat < s.cfg.txbuf) :
    exec (.wrTxbuf i d) s = operandWrite (fun t => t.setTxbuf i.toNat d) s :=
  if_pos hi

/-- Settles O3: while IDLE each row makes its update of the state. -/
theorem operandWritesStoreWhileIdle : Obligations.OperandWritesStoreWhileIdle := by
  intro s d hp
  refine ⟨?dest, ?src, ?reg, ?txLen, ?toLimitHi, ?toLimitLo, fun _ => exec_wrTxbuf_idle d hp⟩
  case dest => rw [exec_wrDest, operandWrite_idle hp]; rfl
  case src => rw [exec_wrSrc, operandWrite_idle hp]; rfl
  case reg => rw [exec_wrReg, operandWrite_idle hp]; rfl
  case txLen => rw [exec_wrTxLen, operandWrite_idle hp]; rfl
  case toLimitHi => rw [exec_wrToLimitHi, operandWrite_idle hp, ← loByte_eq_extract]; rfl
  case toLimitLo => rw [exec_wrToLimitLo, operandWrite_idle hp]; rfl

/-- Rule R313: every operand row is an `operandWrite`, and that is rejected while BUSY. -/
theorem exec_operandWrite_busy {i : Instr} {s : State} (h : OperandWrite s.cfg i)
    (hp : s.phase ≠ .idle) : exec i s = .next s.reject := by
  rcases h with ⟨d, rfl | rfl | rfl | rfl | rfl | rfl⟩ | ⟨k, d, rfl, hk⟩
  · rw [exec_wrDest, operandWrite_busy hp]
  · rw [exec_wrSrc, operandWrite_busy hp]
  · rw [exec_wrReg, operandWrite_busy hp]
  · rw [exec_wrTxLen, operandWrite_busy hp]
  · rw [exec_wrToLimitHi, operandWrite_busy hp]
  · rw [exec_wrToLimitLo, operandWrite_busy hp]
  · rw [exec_wrTxbuf d hk, operandWrite_busy hp]

theorem exec_wrCtrl (d : Byte) (s : State) : exec (.wrCtrl d) s = .next (s.setCtrl d) := rfl

theorem exec_wrStatus (d : Byte) (s : State) : exec (.wrStatus d) s = .next (s.clearFlags d) := rfl

/-- Settles O5: the operand rows are rejected alike; of the other five rows only WR_STATUS touches REJ,
and it sets no flag. -/
theorem operandWritesAreRejectedWhileBusy : Obligations.OperandWritesAreRejectedWhileBusy := by
  constructor
  · intro s d hp
    have hrow {i : Instr} (h : OperandWrite s.cfg i) := exec_operandWrite_busy h hp
    exact ⟨hrow (.inl ⟨d, by simp⟩), hrow (.inl ⟨d, by simp⟩), hrow (.inl ⟨d, by simp⟩),
      hrow (.inl ⟨d, by simp⟩), hrow (.inl ⟨d, by simp⟩), hrow (.inl ⟨d, by simp⟩),
      fun i hi => hrow (.inr ⟨i, d, rfl, hi⟩)⟩
  · rintro s t d (h | h | h | h | h) hrej
    · rw [exec_wrCtrl] at h; cases h; exact hrej
    · rw [exec_wrStatus] at h; cases h; exact (clearFlags_noFlagRises s d).rej hrej
    · rw [exec_wrCrcAccHi] at h; cases h; exact hrej
    · rw [exec_wrCrcAccLo] at h; cases h; exact hrej
    · rw [exec_wrCrcIn] at h; cases h; exact hrej

/-! ### Writes to CTRL and STATUS -/

theorem setCtrl_ieDone (s : State) (d : Byte) : (s.setCtrl d).ieDone = d.getLsbD 0 := by
  simp [State.ieDone, ctrlKept]

theorem setCtrl_ieErr (s : State) (d : Byte) : (s.setCtrl d).ieErr = d.getLsbD 1 := by
  simp [State.ieErr, ctrlKept]

/-- Rule R355 after a write to CTRL: bits 0 and 1 of the byte written are the enable bits. -/
theorem setCtrl_irq (s : State) (d : Byte) :
    (s.setCtrl d).irq = ((s.done && d.getLsbD 0) || (s.err && d.getLsbD 1)) := by
  rw [State.irq, setCtrl_ieDone, setCtrl_ieErr, setCtrl_done, setCtrl_err]

/-- Settles O6, by the enable bits that CTRL keeps. -/
theorem ctrlWriteKeepsTheEnableBits : Obligations.CtrlWriteKeepsTheEnableBits := fun s d =>
  ⟨rfl, exec_wrCtrl d s, setCtrl_irq s d⟩

theorem w1c_eq_ite (flag : Bool) (d : Byte) (k : Nat) :
    w1c flag d k = if d.getLsbD k then false else flag := by
  cases h : d.getLsbD k <;> simp [w1c, h]

/-- Rule R315 written out, as the statement writes it. -/
theorem clearFlags_eq_ite (s : State) (d : Byte) : s.clearFlags d = { s with
    done := if d.getLsbD 1 then false else s.done
    err := if d.getLsbD 2 then false else s.err
    rej := if d.getLsbD 3 then false else s.rej
    lineErr := if d.getLsbD 4 then false else s.lineErr } := by
  simp only [State.clearFlags, w1c_eq_ite]

/-- Rule R355 after a write to STATUS. -/
theorem clearFlags_irq (s : State) (d : Byte) : (s.clearFlags d).irq =
    ((s.done && !d.getLsbD 1 && s.ctrl.getLsbD 0) || (s.err && !d.getLsbD 2 && s.ctrl.getLsbD 1)) :=
  rfl

/-- Settles O7: the write is `clearFlags`, which sets no field but the four flags. -/
theorem statusWriteClearsTheSelectedFlags : Obligations.StatusWriteClearsTheSelectedFlags := by
  intro s d
  rw [← clearFlags_eq_ite]
  exact ⟨rfl, exec_wrStatus d s, clearFlags_irq s d⟩

end Sys2Proof.Machine
end

section
/-!
PROOFS. The exceptions (spec/60_exceptions.md): completion and the interrupt (rules R345 and R355), the
order of the events of one cycle (rule R351), the tick and the two timeouts (rules R361 to R363), that
only a command starts a frame (rule R348), and that no instruction and no agent stops the STC (rule R340).
-/

namespace Sys2Proof.Machine

/-! ### Completion and the interrupt -/

/-- Rule R345 with ERR by the number of the code (rule R340). -/
theorem complete_eq (s : State) (c : ErrCode) : s.complete c = { s with
    errcode := c.toByte, done := true, err := decide (c.toByte ≠ 0x00), phase := .idle } := by
  have herr : decide (c.toByte ≠ 0x00) = decide (c ≠ .none) :=
    decide_eq_decide.2 (not_congr (errCode_toByte_eq_zero c))
  rw [herr]
  rfl

/-- Settles O35: DONE is set by completion, and both flags of the interrupt are cleared by acceptance. -/
theorem completionPublishesAndRaisesTheInterrupt :
    Obligations.CompletionPublishesAndRaisesTheInterrupt := by
  intro s c o
  refine ⟨complete_eq s c, ?_, rfl⟩
  rw [complete_eq, State.irq, Bool.true_and]
  rfl

/-! ### The events of one cycle -/

/-- The moves of a cycle, lined up as events (rule R351). -/
theorem map_move_moves (c : Cycle) : c.moves.map Event.move =
    (if c.rst then [.move .rst] else []) ++ (c.line.map fun e => Event.move (.line e)).toList ++
      (if c.tick then [.move .tick] else []) ++ (if c.seq then [.move .seq] else []) ++
      (c.host.map fun x => Event.move (.host x)).toList := by
  simp only [Cycle.moves, List.map_append, apply_ite (List.map Event.move), List.map_cons,
    List.map_nil, Option.toList_map, List.map_map, Function.comp_def]

/-- Lining up the events of a cycle is a step of its own (notes/assumptions/6). -/
theorem step_cycle {s : State} {c : Cycle} {es : List Event} (ha : s.agenda = .cycle c :: es) :
    step s = .next (s.setAgenda (c.moves.map Event.move ++ es)) := by
  simp only [step, fetch, ha]

/-- Settles O33, by whether LINE and HOST have an event in the cycle. -/
theorem cycleTakesItsEventsInOrder : Obligations.CycleTakesItsEventsInOrder := by
  intro s c es ha
  rw [step_cycle ha, map_move_moves]
  cases c.line with
  | none => cases c.host <;> rfl
  | some e => cases c.host <;> rfl

/-! ### The tick -/

theorem tick_awaitStart {s : State} (hp : s.phase = .awaitStart) :
    s.tick = s.countTick .timeoutStart := by
  simp only [State.tick, hp]

theorem tick_recvBody {s : State} (hp : s.phase = .recvBody) : s.tick = s.countTick .timeoutEnd := by
  simp only [State.tick, hp]

theorem countTick_eq (s : State) (c : ErrCode) : s.countTick c =
    if s.toLimit.toNat ≤ (countUp s.toCnt).toNat then (s.setToCnt (countUp s.toCnt)).complete c
    else s.setToCnt (countUp s.toCnt) := by
  simp only [State.countTick, State.expired, decide_eq_true_eq]

theorem countTick_expired {s : State} (h : s.toLimit.toNat ≤ (countUp s.toCnt).toNat) (c : ErrCode) :
    s.countTick c = (s.setToCnt (countUp s.toCnt)).complete c :=
  (countTick_eq s c).trans (if_pos h)

theorem countTick_below {s : State} (h : (countUp s.toCnt).toNat < s.toLimit.toNat) (c : ErrCode) :
    s.countTick c = s.setToCnt (countUp s.toCnt) :=
  (countTick_eq s c).trans (if_neg (Nat.not_le.2 h))

/-- Rule R361's count, written out. -/
theorem countUp_eq (c : Word16) : countUp c = BitVec.ofNat 16 (min (c.toNat + 1) 0xFFFF) := by
  rw [← countUp_toNat, BitVec.ofNat_toNat, BitVec.setWidth_eq]

/-- Rule R361 in the model's words and written out. -/
theorem tick_eq_tickedState (s : State) : s.tick = tickedState s := by
  unfold tickedState
  rw [← countUp_eq]
  rcases tick_cases s with ⟨hp, e⟩ | ⟨hp, e⟩ | ⟨hstart, hbody, e⟩ <;> rw [e]
  · have hwait : s.phase = .awaitStart ∨ s.phase = .recvBody := .inl hp
    rw [countTick_eq, if_pos hwait, if_pos hp]
    rfl
  · have hwait : s.phase = .awaitStart ∨ s.phase = .recvBody := .inr hp
    have hstart : s.phase ≠ .awaitStart := by rw [hp]; decide
    rw [countTick_eq, if_pos hwait, if_neg hstart]
    rfl
  · rw [if_neg (not_or.2 ⟨hstart, hbody⟩)]

/-- TICK, rule R361. -/
theorem step_tick {s : State} {es : List Event} (ha : s.agenda = .move .tick :: es) :
    step s = .next (s.setAgenda es).tick := by
  have hf : fetch s = .agent .tick (s.setAgenda es) := fetch_of_agenda_move ha
  rw [step_of_fetch_agent hf, runAgent]

/-- Settles O26. -/
theorem tickCountsAndTimesOut : Obligations.TickCountsAndTimesOut := fun _ _ ha =>
  (step_tick ha).trans (congrArg _ (tick_eq_tickedState _))

/-! ### The count stays below the limit -/

theorem timed_of_no_wait {s : State} (h : ¬ (s.phase = .awaitStart ∨ s.phase = .recvBody)) :
    s.Timed := fun hwait => absurd hwait h

/-- A window opens with the count 0 (rule R362). -/
theorem timed_of_toCnt_zero {s : State} (h : s.toCnt = 0x0000) : s.Timed := fun _ => by
  rw [h]
  exact Nat.lt_of_lt_of_le Nat.one_pos (Nat.le_max_right ..)

theorem Scheduled.timed {s u : State} (hs : Scheduled s u) (h : s.Timed) : u.Timed := by
  obtain ⟨es, n, rfl⟩ := hs
  exact h

theorem timed_issue {s : State} (h : s.Timed) (o : Op) : (s.issue o).Timed := by
  rcases issue_cases s o with ⟨_, e⟩ | ⟨_, _, e⟩ | ⟨_, _, e⟩ <;> rw [e]
  · exact h
  · exact timed_of_no_wait (by simp)
  · exact timed_of_no_wait (by simp)

theorem timed_response {s : State} (h : s.Timed) (t : Byte) : (s.response t).Timed := by
  rcases response_cases s t with ⟨_, e⟩ | ⟨_, e⟩ <;> rw [e]
  · exact timed_of_no_wait (by simp [validate_phase])
  · exact h

theorem timed_lineRecvAll {s : State} (h : s.Timed) (bs : List Byte) : (s.lineRecvAll bs).Timed :=
  reception_keeps (P := State.Timed)
    (hopen := fun _ _ _ => timed_of_toCnt_zero rfl)
    (hend := fun _ _ _ => timed_of_no_wait (by simp))
    (hesc := fun _ _ _ h => h)
    (hstore := fun _ _ _ h => h) bs h

/-- A count that does not reach the limit stays below it, and one that does ends the wait (rule R361). -/
theorem timed_countTick (s : State) (c : ErrCode) : (s.countTick c).Timed := by
  rcases countTick_cases s c with ⟨_, e⟩ | ⟨hlt, e⟩ <;> rw [e]
  · exact timed_of_no_wait (by simp)
  · exact fun _ => hlt.trans_le (Nat.le_max_left ..)

theorem timed_tick {s : State} (h : s.Timed) : s.tick.Timed := by
  rcases tick_cases s with ⟨_, e⟩ | ⟨_, e⟩ | ⟨_, _, e⟩ <;> rw [e]
  · exact timed_countTick s _
  · exact timed_countTick s _
  · exact h

/-- The last byte of the frame opens window 1, an earlier one leaves FRAMING (rules R210 and R362). -/
theorem timed_emit {s : State} (hp : s.phase = .framing) (b : Byte) :
    (s.lineSend b).advanceTx.Timed := by
  by_cases hlast : s.txIdx + 1 = s.txFrame.length
  · exact timed_of_toCnt_zero ((advanceTx_toCnt _).trans (if_pos hlast))
  · have hphase : (s.lineSend b).advanceTx.phase = .framing :=
      (advanceTx_phase _).trans ((if_neg hlast).trans hp)
    exact timed_of_no_wait (by simp [hphase])

/-- TO_LIMIT is written only while IDLE (rules R313 and R316); of the other effects, a command, a
response and delivered bytes touch the phase or the count. -/
theorem Effect.timed {i : Instr} {s t : State} (he : Effect i s t) (h : s.Timed) : t.Timed := by
  cases he with
  | toLimitHi hp d => exact timed_of_no_wait (by simp [hp])
  | toLimitLo hp d => exact timed_of_no_wait (by simp [hp])
  | issue o _ => exact timed_issue h o
  | response _ b => exact timed_response h b
  | line _ bs => exact timed_lineRecvAll h bs
  | _ => exact h

/-- Settles O53: every effect of an instruction and every agent's step keeps the count below the
limit. -/
theorem stepKeepsTimed : Obligations.StepKeepsTimed := fun _ _ hs hstep =>
  step_keeps
    (hsched := fun _ _ hu h => hu.timed h)
    (heffect := fun _ _ _ he h => he.timed h)
    (hutx := fun _ _ h => h)
    (herror := fun _ h => h)
    (htick := fun _ h => timed_tick h)
    (hreset := fun _ _ => timed_of_toCnt_zero rfl)
    (hemit := fun _ b hp _ _ _ => timed_emit hp b) hs hstep

/-! ### The two timeout windows, run -/

/-- Settles O34: the START opens window 2, in which the tick is the first. -/
theorem startBeatsTheTickOfItsCycle : Obligations.StartBeatsTheTickOfItsCycle := by
  intro s es hp hlim ha
  have htick : (s.openBody.setAgenda es).tick = (s.openBody.setAgenda es).setToCnt 0x0001 :=
    (tick_recvBody rfl).trans (countTick_below (s := s.openBody.setAgenda es) hlim _)
  have hrun : s.run 3 = .next ((s.openBody.setAgenda es).setToCnt 0x0001) := by
    rw [run_succ_of_step (step_cycle ha), run_succ_of_step (step_line_byte rfl), lineRecv_setAgenda,
      lineRecv_start hp, run_succ_of_step (step_tick rfl), run_zero]
    exact congrArg _ htick
  exact ⟨_, hrun, rfl, rfl, rfl, rfl, rfl, rfl⟩

/-- A tick with which the count stays below the limit: the wait for START goes on (rule R361). -/
theorem step_tick_waits {s : State} {es : List Event} (ha : s.agenda = .move .tick :: es)
    (hp : s.phase = .awaitStart) (hlim : s.toCnt.toNat + 1 < s.toLimit.toNat) :
    step s = .next ((s.setAgenda es).setToCnt (countUp s.toCnt)) := by
  have hbelow : (countUp s.toCnt).toNat < s.toLimit.toNat := by rw [countUp_toNat]; omega
  exact (step_tick ha).trans (congrArg _ ((tick_awaitStart (s := s.setAgenda es) hp).trans
    (countTick_below (s := s.setAgenda es) hbelow _)))

/-- The tick with which the count reaches the limit ends the wait for START (rules R361 and R363). -/
theorem step_tick_timeoutStart {s : State} {es : List Event} (ha : s.agenda = .move .tick :: es)
    (hp : s.phase = .awaitStart) (hlim : s.toLimit.toNat ≤ s.toCnt.toNat + 1) :
    step s = .next (((s.setAgenda es).setToCnt (countUp s.toCnt)).complete .timeoutStart) := by
  have hmax : s.toLimit.toNat < 2 ^ 16 := s.toLimit.isLt
  have hexp : s.toLimit.toNat ≤ (countUp s.toCnt).toNat := by rw [countUp_toNat]; omega
  exact (step_tick ha).trans (congrArg _ ((tick_awaitStart (s := s.setAgenda es) hp).trans
    (countTick_expired (s := s.setAgenda es) hexp _)))

/-- Ticks that leave the count below the limit change only the count. By induction on the ticks. -/
theorem run_ticks_wait {s : State} {es : List Event} {n : Nat} (ha : s.agenda = tickEvents n ++ es)
    (hp : s.phase = .awaitStart) (hn : s.toCnt.toNat + n < max s.toLimit.toNat 1) :
    ∃ c : Word16, c.toNat = s.toCnt.toNat + n ∧
      ∀ k, s.run (n + k) = ((s.setToCnt c).setAgenda es).run k := by
  induction n generalizing s with
  | zero =>
    have hs : s.agenda = es := ha
    subst hs
    exact ⟨s.toCnt, rfl, fun k => by rw [Nat.zero_add]; rfl⟩
  | succ n ih =>
    have hmax : s.toLimit.toNat < 2 ^ 16 := s.toLimit.isLt
    have hcount : (countUp s.toCnt).toNat = s.toCnt.toNat + 1 := by rw [countUp_toNat]; omega
    have hstep := step_tick_waits (es := tickEvents n ++ es) ha hp (by omega)
    have hrest : (countUp s.toCnt).toNat + n < max s.toLimit.toNat 1 := by omega
    obtain ⟨c, hc, hrun⟩ :=
      ih (s := (s.setAgenda (tickEvents n ++ es)).setToCnt (countUp s.toCnt)) rfl hp hrest
    rw [setToCnt_toCnt] at hc
    refine ⟨c, by omega, fun k => ?_⟩
    rw [Nat.add_right_comm, run_succ_of_step hstep, hrun]
    rfl

/-- One tick more, with which the count reaches the limit, ends the wait. -/
theorem run_ticks_timeoutStart {s : State} {es : List Event} {n : Nat}
    (ha : s.agenda = tickEvents (n + 1) ++ es) (hp : s.phase = .awaitStart)
    (hn : s.toCnt.toNat + n + 1 = max s.toLimit.toNat 1) :
    ∃ c, s.run (n + 1) = .next (((s.setToCnt c).setAgenda es).complete .timeoutStart) := by
  have hticks : tickEvents (n + 1) ++ es = tickEvents n ++ .move .tick :: es := by
    rw [tickEvents, List.replicate_succ', List.append_assoc]
    rfl
  obtain ⟨c, hc, hrun⟩ := run_ticks_wait (ha.trans hticks) hp (by omega)
  have hlim : s.toLimit.toNat ≤ c.toNat + 1 := by omega
  have hlast := step_tick_timeoutStart (s := (s.setToCnt c).setAgenda (.move .tick :: es)) rfl hp hlim
  exact ⟨countUp c, (hrun 1).trans ((run_succ_of_step hlast 0).trans (run_zero _))⟩

/-- Settles O48: the ticks below the limit, and the one that reaches it. -/
theorem silentLineTimesOutAtTheLimit : Obligations.SilentLineTimesOutAtTheLimit := by
  intro s k hp hcnt
  have hzero (n : Nat) : s.toCnt.toNat + n = n := by rw [hcnt]; exact Nat.zero_add n
  constructor
  · intro hk
    obtain ⟨c, hc, hrun⟩ := run_ticks_wait (s := s.offer (tickEvents k)) rfl hp
      ((hzero k).trans_lt hk)
    exact ⟨_, (hrun 0).trans (run_zero _), hp, hc.trans (hzero k)⟩
  · intro hk
    obtain ⟨n, rfl⟩ : ∃ n, k = n + 1 := Nat.exists_eq_add_one_of_ne_zero (by omega)
    obtain ⟨c, hrun⟩ := run_ticks_timeoutStart (s := s.offer (tickEvents (n + 1))) rfl hp
      ((hzero (n + 1)).trans hk)
    exact ⟨_, hrun, rfl, rfl, rfl, rfl⟩

/-! ### What starts a frame -/

/-- A frame that is being sent after a step that leaves the transmission alone was being sent before. -/
theorem KeepsTx.same_frame {s t : State} (h : KeepsTx s t) (ht : t.phase = .framing) :
    s.phase = .framing ∧ t.txFrame = s.txFrame ∧ s.txIdx ≤ t.txIdx :=
  ⟨h.phase ht, h.frame, h.idx.ge⟩

/-- A command leaves the transmission alone or starts its own frame from IDLE (rules R203 to R208). -/
theorem issue_keepsTx_or_starts (s : State) (o : Op) : KeepsTx s (s.issue o) ∨
    (s.phase = .idle ∧ (s.issue o).txIdx = 0 ∧ (s.issue o).op = o) := by
  rcases issue_cases s o with ⟨_, e⟩ | ⟨_, _, e⟩ | ⟨hp, _, e⟩ <;> rw [e]
  · exact .inl { KeepsTx.refl s with }
  · exact .inl { complete_keepsTx s .srcRange with }
  · exact .inr ⟨hp, rfl, rfl⟩

/-- Of the effects of an instruction only a command touches the transmission. -/
theorem Effect.keepsTx_or_starts {i : Instr} {s t : State} (he : Effect i s t) : KeepsTx s t ∨
    (s.phase = .idle ∧ t.txIdx = 0 ∧ commandOf i = some t.op) := by
  cases he with
  | issue o h =>
    refine (issue_keepsTx_or_starts s o).imp_right fun ⟨hp, hidx, hop⟩ => ⟨hp, hidx, ?_⟩
    rw [hop, h]
  | response _ b => exact .inl (response_keepsTx s b)
  | line _ bs => exact .inl (lineRecvAll_keepsTx s bs)
  | _ => exact .inl { KeepsTx.refl s with }

/-- Settles O57: what leads to FRAMING leaves the transmission alone, starts a frame, or hands over one
more byte of it. -/
theorem framesStartOnlyByCommands : Obligations.FramesStartOnlyByCommands := by
  intro s t h ht
  rcases step_effect h with hs | ⟨u, hs, hc⟩
  · exact .inl (hs.keepsTx.same_frame ht)
  · have hkeeps (hk : KeepsTx u t) := (hs.keepsTx.trans hk).same_frame ht
    rcases hc with ⟨i, hf, he⟩ | ⟨_, hb, rfl⟩ | ⟨_, rfl⟩ | ⟨_, rfl⟩ | ⟨_, rfl⟩ | ⟨_, hp, _, b, _, rfl⟩
    · rcases he.keepsTx_or_starts with hk | ⟨hp, hidx, hcmd⟩
      · exact .inl (hkeeps hk)
      · exact .inr ⟨hs.phase_eq.symm.trans hp, hidx, i, u, hf, hcmd⟩
    · exact .inl (hkeeps (utxDone_keepsTx hb))
    · exact .inl (hkeeps { KeepsTx.refl u with })
    · exact .inl (hkeeps (tick_keepsTx u))
    · cases ht
    · refine .inl ⟨hs.phase_eq.symm.trans hp, ?frame, ?index⟩
      case frame => rw [advanceTx_txFrame, lineSend_txFrame, hs.keepsTx.frame]
      case index => rw [advanceTx_txIdx, lineSend_txIdx, hs.keepsTx.idx]; omega

/-! ### Nothing stops the STC -/

theorem operandWrite_next (u : State → State) (s : State) : ∃ t, operandWrite u s = .next t := by
  by_cases hp : s.phase = .idle
  · exact ⟨_, operandWrite_idle hp⟩
  · exact ⟨_, operandWrite_busy hp⟩

/-- Every row that is no operand write gives its next state outright. -/
theorem exec_next (i : Instr) (s : State) : ∃ t, exec i s = .next t := by
  cases i with
  | wrDest d => exact operandWrite_next (fun t => t.setDest d) s
  | wrSrc d => exact operandWrite_next (fun t => t.setSrc d) s
  | wrReg d => exact operandWrite_next (fun t => t.setReg d) s
  | wrTxLen d => exact operandWrite_next (fun t => t.setTxLen d) s
  | wrToLimitHi d => exact operandWrite_next (fun t => t.setToLimitHi d) s
  | wrToLimitLo d => exact operandWrite_next (fun t => t.setToLimitLo d) s
  | wrTxbuf k d =>
    rcases Nat.lt_or_ge k.toNat s.cfg.txbuf with hk | hk
    · exact (exec_wrTxbuf d hk).symm ▸ operandWrite_next _ s
    · exact ⟨_, exec_wrTxbuf_reserved d hk⟩
  | _ => exact ⟨_, rfl⟩

/-- While the frame in flight is the frame of the operands, TX_EMIT finds a byte at the index, so no
agent's step faults (rule R210, notes/assumptions/20). -/
theorem runAgent_next {a : AgentStep} {s : State} (hen : a.Enabled s) (h : s.Frozen) :
    ∃ t, runAgent a s = .next t := by
  cases a with
  | txEmit =>
    obtain ⟨hp, _⟩ := hen
    rcases txEmit_cases s with ⟨b, _, e⟩ | ⟨hle, _⟩
    · exact ⟨_, e⟩
    · exact absurd (h.framing hp) (Nat.not_lt.2 hle)
  | _ => exact ⟨_, rfl⟩

/-- A step from a state that meets Frozen answers a next state unless the fetch refuses. -/
theorem step_next_or_refused {s : State} (h : s.Frozen) :
    (∃ t, step s = .next t) ∨ ∃ r, fetch s = .refused r ∧ step s = .refused r := by
  have hs (u : State) (hu : (fetch s).state? = some u) : u.Frozen := (fetch_scheduled hu).frozen h
  unfold step
  cases hf : fetch s with
  | instr i u => exact .inl (exec_next i u)
  | agent a u => exact .inl (runAgent_next (fetch_enabled hf) (hs u (by rw [hf]; rfl)))
  | queued u => exact .inl ⟨u, rfl⟩
  | refused r => exact .inr ⟨r, rfl, rfl⟩

/-- A move is never refused: HOST's and LINE's words are encodings (rules R101 and R291). -/
theorem fetchMove_ne_refused (m : Move) (s : State) (r : Refusal) : fetchMove m s ≠ .refused r := by
  cases m with
  | host x =>
    obtain ⟨i, _, hd⟩ := decode_accessBytes x
    rw [fetchMove, fetchCoded_ok (by decide) hd]
    nofun
  | line e =>
    cases e with
    | byte b =>
      have hd : decode .char (charBytes b) = .ok (.char b, []) := decode_charBytes b []
      rw [fetchMove, fetchCoded_ok (by decide) hd]
      nofun
    | framingError => nofun
  | tick => nofun
  | rst => nofun
  | utx =>
    cases hb : s.utxBusy with
    | true => rw [fetchMove_utx_busy hb]; nofun
    | false => rw [fetchMove_utx_disabled hb]; nofun
  | seq =>
    change fetchSeq s ≠ .refused r
    unfold fetchSeq
    split
    · split <;> nofun
    all_goals nofun

/-- The fetch refuses nothing but encoded bytes lined up from outside. -/
theorem fetch_ne_refused {s : State} (h : ∀ f bs es, s.agenda ≠ .coded f bs :: es) (r : Refusal) :
    fetch s ≠ .refused r := by
  unfold fetch
  split
  case h_1 => exact fetchMove_ne_refused _ _ r
  case h_2 f bs es ha => exact absurd ha (h f bs es)
  case h_3 => exact fetchMove_ne_refused _ _ r
  case h_4 => nofun

/-- Settles O56: the only stop of a step from a state that meets Frozen is the fetch's refusal, of encoded
bytes only, and bytes that decode are not refused. -/
theorem nothingFaults : Obligations.NothingFaults := by
  refine ⟨exec_next, ?uncoded, ?decoded, ?nofault⟩
  case uncoded =>
    intro s h ha
    rcases step_next_or_refused h with hnext | ⟨r, hr, _⟩
    · exact hnext
    · exact absurd hr (fetch_ne_refused ha r)
  case decoded =>
    intro s f bs es ha hf ⟨⟨i, rest⟩, hd⟩
    have hfetch : s.Fetches i ((s.setAgenda es).putBack f rest) :=
      (fetch_of_agenda_coded ha).trans (fetchCoded_ok hf hd _)
    rw [hfetch.step_eq]
    exact exec_next ..
  case nofault =>
    intro s r h hr
    rcases step_next_or_refused h with ⟨t, e⟩ | ⟨_, _, e⟩ <;> rw [e] at hr <;> cases hr

end Sys2Proof.Machine
end

section
/-!
PROOFS. Reset and hazards (spec/70_reset_and_hazards.md): while BUSY the results of the transaction before
stay cleared (rule R394), what changes the three CRC registers (rule R392), and what a reset leaves (rule
R380).
-/

namespace Sys2Proof.Machine

/-! ### The results while BUSY -/

theorem quiet_of_idle {s : State} (hp : s.phase = .idle) : s.Quiet := fun hbusy => absurd hp hbusy

theorem Scheduled.quiet {s u : State} (hs : Scheduled s u) (h : s.Quiet) : u.Quiet := by
  obtain ⟨es, n, rfl⟩ := hs
  exact h

/-- A write to STATUS leaves cleared flags cleared (rule R315). -/
theorem quiet_clearFlags {s : State} (h : s.Quiet) (d : Byte) : (s.clearFlags d).Quiet := fun hbusy => by
  obtain ⟨hdone, herr, hresults⟩ := h hbusy
  exact ⟨by simp [w1c, hdone], by simp [w1c, herr], hresults⟩

/-- A command enters FRAMING only with SRC in range and the results cleared (rules R206 and R207). -/
theorem quiet_issue {s : State} (h : s.Quiet) (o : Op) : (s.issue o).Quiet := by
  rcases issue_cases s o with ⟨_, e⟩ | ⟨_, _, e⟩ | ⟨_, hsrc, e⟩ <;> rw [e]
  · exact h
  · exact quiet_of_idle rfl
  · exact fun _ => ⟨rfl, rfl, rfl, rfl, rfl, rfl, hsrc⟩

theorem quiet_response {s : State} (h : s.Quiet) (t : Byte) : (s.response t).Quiet := by
  rcases response_cases s t with ⟨_, e⟩ | ⟨_, e⟩ <;> rw [e]
  · exact quiet_of_idle (validate_phase s t)
  · exact h

/-- Results cleared in one busy phase stay cleared when nothing but the phase changes. -/
theorem State.Quiet.of_busy {s : State} (h : s.Quiet) {p : Phase} (hp : s.phase = p)
    (hbusy : p ≠ .idle) (q : Phase) : State.Quiet { s with phase := q } :=
  fun _ => h (hp ▸ hbusy)

/-- Delivered bytes touch no result, and move the phase only within a transaction. -/
theorem quiet_lineRecvAll {s : State} (h : s.Quiet) (bs : List Byte) : (s.lineRecvAll bs).Quiet :=
  reception_keeps (P := State.Quiet)
    (hopen := fun _ hp h => h.of_busy hp (by decide) .recvBody)
    (hend := fun _ hp h => h.of_busy hp (by decide) .validating)
    (hesc := fun _ _ _ h => h)
    (hstore := fun _ _ _ h => h) bs h

/-- A wait that ends is completed, and the phase is IDLE again (rule R345). -/
theorem quiet_countTick {s : State} (h : s.Quiet) (c : ErrCode) : (s.countTick c).Quiet := by
  rcases countTick_cases s c with ⟨_, e⟩ | ⟨_, e⟩ <;> rw [e]
  · exact quiet_of_idle rfl
  · exact h

theorem quiet_tick {s : State} (h : s.Quiet) : s.tick.Quiet := by
  rcases tick_cases s with ⟨_, e⟩ | ⟨_, e⟩ | ⟨_, _, e⟩ <;> rw [e]
  · exact quiet_countTick h _
  · exact quiet_countTick h _
  · exact h

theorem quiet_emit {s : State} (h : s.Quiet) (hp : s.phase = .framing) (b : Byte) :
    (s.lineSend b).advanceTx.Quiet := by
  unfold State.advanceTx
  split
  · exact h.of_busy hp (by decide) .awaitStart
  · exact h

/-- SRC is written only while IDLE (rules R313 and R316); of the other effects, a write to STATUS, a
command, a response and delivered bytes touch the phase or a result. -/
theorem Effect.quiet {i : Instr} {s t : State} (he : Effect i s t) (h : s.Quiet) : t.Quiet := by
  cases he with
  | flags d => exact quiet_clearFlags h d
  | src hp d => exact quiet_of_idle hp
  | issue o _ => exact quiet_issue h o
  | response _ b => exact quiet_response h b
  | line _ bs => exact quiet_lineRecvAll h bs
  | _ => exact h

/-- Settles O51: every effect of an instruction and every agent's step keeps the results cleared while
BUSY. -/
theorem stepKeepsQuiet : Obligations.StepKeepsQuiet := fun _ _ hs hstep =>
  step_keeps
    (hsched := fun _ _ hu h => hu.quiet h)
    (heffect := fun _ _ _ he h => he.quiet h)
    (hutx := fun _ _ h => h)
    (herror := fun _ h => h)
    (htick := fun _ h => quiet_tick h)
    (hreset := fun _ _ => quiet_of_idle rfl)
    (hemit := fun _ b hp _ _ h => quiet_emit h hp b) hs hstep

/-! ### The causes of the three CRC registers -/

/-- CRC_ACC, TX_CRC and RX_RES are in t what they are in s. -/
structure KeepsCrc (s t : State) : Prop where
  crcAcc : t.crcAcc = s.crcAcc
  txCrc : t.txCrc = s.txCrc
  rxRes : t.rxRes = s.rxRes

theorem KeepsCrc.refl (s : State) : KeepsCrc s s := ⟨rfl, rfl, rfl⟩

theorem KeepsCrc.trans {s u t : State} (h : KeepsCrc s u) (h' : KeepsCrc u t) : KeepsCrc s t :=
  ⟨h'.crcAcc.trans h.crcAcc, h'.txCrc.trans h.txCrc, h'.rxRes.trans h.rxRes⟩

theorem Scheduled.keepsCrc {s u : State} (h : Scheduled s u) : KeepsCrc s u := by
  obtain ⟨es, n, rfl⟩ := h
  exact ⟨rfl, rfl, rfl⟩

theorem Scheduled.rxCrc_eq {s u : State} (h : Scheduled s u) : u.rxCrc = s.rxCrc := by
  obtain ⟨es, n, rfl⟩ := h
  rfl

/-- Reception computes in `st.rx_crc` and leaves the three registers (rule R245). -/
theorem lineRecvAll_keepsCrc (s : State) (bs : List Byte) : KeepsCrc s (s.lineRecvAll bs) :=
  reception_keeps (P := KeepsCrc s)
    (hopen := fun _ _ h => { h with })
    (hend := fun _ _ h => { h with })
    (hesc := fun _ _ _ h => { h with })
    (hstore := fun _ _ _ h => { h with }) bs (.refl s)

theorem countTick_keepsCrc (s : State) (c : ErrCode) : KeepsCrc s (s.countTick c) := by
  rcases countTick_cases s c with ⟨_, e⟩ | ⟨_, e⟩ <;> rw [e] <;> exact ⟨rfl, rfl, rfl⟩

theorem tick_keepsCrc (s : State) : KeepsCrc s s.tick := by
  rcases tick_cases s with ⟨_, e⟩ | ⟨_, e⟩ | ⟨_, _, e⟩ <;> rw [e]
  · exact countTick_keepsCrc s _
  · exact countTick_keepsCrc s _
  · exact .refl s

theorem emit_keepsCrc (s : State) (b : Byte) : KeepsCrc s (s.lineSend b).advanceTx := by
  constructor <;> simp

/-- How the CRC registers of t come about in the step from s: none changes, or the step is one of the
causes of rule R392, which leaves the registers of the other causes. -/
inductive CrcCause (s t : State) : Prop where
  | none (h : KeepsCrc s t)
  | reset (u : State) (hf : fetch s = .agent .reset u)
  | unit (i : Instr) (u : State) (d : Byte) (hf : s.Fetches i u)
      (hi : i = .wrCrcAccHi d ∨ i = .wrCrcAccLo d ∨ i = .wrCrcIn d)
      (htx : t.txCrc = s.txCrc) (hrx : t.rxRes = s.rxRes)
  | command (i : Instr) (u : State) (hf : s.Fetches i u) (hi : commandOf i = some t.op)
      (hp : s.phase = .idle) (hacc : t.crcAcc = s.crcAcc)
      (htx : t.phase = .framing ∨ t.txCrc = s.txCrc)
  | validation (i : Instr) (u : State) (hf : s.Fetches i u) (hi : i.format = .rsp)
      (hs : s.phase = .validating) (ht : t.phase = .idle)
      (hacc : t.crcAcc = s.crcAcc) (htx : t.txCrc = s.txCrc) (hrx : t.rxRes = s.rxCrc)

/-- A command is rejected while BUSY; accepted, it clears RX_RES, and writes TX_CRC if it is framed
(rules R206 to R208). -/
theorem issue_crcCause {s u : State} {i : Instr} {o : Op} (hs : Scheduled s u)
    (hf : s.Fetches i u) (hi : commandOf i = some o) : CrcCause s (u.issue o) := by
  have hidle (hp : u.phase = .idle) : s.phase = .idle := hs.phase_eq.symm.trans hp
  have hu := hs.keepsCrc
  rcases issue_cases u o with ⟨_, e⟩ | ⟨hp, _, e⟩ | ⟨hp, _, e⟩ <;> rw [e]
  · exact .none { hu with }
  · exact .command i u hf hi (hidle hp) hu.crcAcc (.inr hu.txCrc)
  · exact .command i u hf hi (hidle hp) hu.crcAcc (.inl rfl)

/-- VALIDATE publishes `st.rx_crc` in RX_RES, whatever its verdict (rule R250). -/
theorem response_crcCause {s u : State} {i : Instr} (hs : Scheduled s u) (hf : s.Fetches i u)
    (hi : i.format = .rsp) (b : Byte) : CrcCause s (u.response b) := by
  have hu := hs.keepsCrc
  rcases response_cases u b with ⟨hp, e⟩ | ⟨_, e⟩ <;> rw [e]
  · have hvalidating : s.phase = .validating := hs.phase_eq.symm.trans hp
    rcases validate_cases u b with ⟨_, _, e⟩ | ⟨_, _, _, _, e⟩ <;> rw [e] <;>
      exact .validation i u hf hi hvalidating rfl hu.crcAcc hu.txCrc hs.rxCrc_eq
  · exact .none hu

/-- Of the effects of an instruction only a write to the CRC unit, a command and a response touch the
three registers. -/
theorem Effect.crcCause {s u t : State} {i : Instr} (he : Effect i u t) (hs : Scheduled s u)
    (hf : s.Fetches i u) : CrcCause s t := by
  cases he with
  | crcAcc d hi c => exact .unit i u d hf hi hs.keepsCrc.txCrc hs.keepsCrc.rxRes
  | issue o hi => exact issue_crcCause hs hf hi
  | response hi b => exact response_crcCause hs hf hi b
  | line _ bs => exact .none (hs.keepsCrc.trans (lineRecvAll_keepsCrc u bs))
  | _ => exact .none { hs.keepsCrc with }

theorem step_crcCause {s t : State} (h : step s = .next t) : CrcCause s t := by
  rcases step_effect h with hs | ⟨u, hs, hc⟩
  · exact .none hs.keepsCrc
  · rcases hc with ⟨i, hf, he⟩ | ⟨_, _, rfl⟩ | ⟨_, rfl⟩ | ⟨_, rfl⟩ | ⟨hf, _⟩ | ⟨_, _, _, b, _, rfl⟩
    · exact he.crcCause hs hf
    · exact .none { hs.keepsCrc with }
    · exact .none { hs.keepsCrc with }
    · exact .none (hs.keepsCrc.trans (tick_keepsCrc u))
    · exact .reset u hf
    · exact .none (hs.keepsCrc.trans (emit_keepsCrc u b))

/-- Settles O60: each cause of a step changes its own registers and leaves the others. -/
theorem crcRegistersChangeOnlyByTheirCauses : Obligations.CrcRegistersChangeOnlyByTheirCauses := by
  intro s t h
  cases step_crcCause h with
  | none hk => exact ⟨absurd hk.crcAcc, absurd hk.txCrc, absurd hk.rxRes⟩
  | reset u hf => exact ⟨fun _ => .inl ⟨u, hf⟩, fun _ => .inl ⟨u, hf⟩, fun _ => .inl ⟨u, hf⟩⟩
  | unit i u d hf hi htx hrx =>
    exact ⟨fun _ => .inr ⟨i, u, d, hf, hi⟩, absurd htx, absurd hrx⟩
  | command i u hf hi hp hacc htx =>
    exact ⟨absurd hacc, fun hne => .inr ⟨hp, htx.resolve_right hne, i, u, hf, hi⟩,
      fun _ => .inr (.inl ⟨hp, i, u, hf, hi⟩)⟩
  | validation i u hf hi hs ht hacc htx hrx =>
    exact ⟨absurd hacc, absurd htx, fun _ => .inr (.inr ⟨hs, ht, hrx, i, u, hf, hi⟩)⟩

/-! ### What a reset leaves -/

/-- RST's move runs RESET (rule R380). -/
theorem step_reset {s : State} {es : List Event} (ha : s.agenda = .move .rst :: es) :
    step s = .next (s.setAgenda es).powerReset := by
  have hf : fetch s = .agent .reset (s.setAgenda es) := fetch_of_agenda_move ha
  rw [step_of_fetch_agent hf, runAgent]

/-- STATUS reads as 0x00 while IDLE with no sticky flag set (rule R35). -/
theorem statusByte_of_clear {s : State} (hp : s.phase = .idle) (hdone : s.done = false)
    (herr : s.err = false) (hrej : s.rej = false) (hline : s.lineErr = false) :
    s.statusByte = 0x00 := by
  simp [State.statusByte, State.busy, Phase.code, hp, hdone, herr, hrej, hline]

/-- The interrupt is low while DONE and ERR are clear (rule R355). -/
theorem irq_of_clear {s : State} (hdone : s.done = false) (herr : s.err = false) : s.irq = false := by
  simp [State.irq, hdone, herr]

/-- Settles O31: the values of RESET's next state, field by field. -/
theorem resetStepSetsTheSpecValues : Obligations.ResetStepSetsTheSpecValues := by
  intro s es ha
  refine ⟨_, step_reset ha, ?_⟩
  have hstatus := statusByte_of_clear (s := (s.setAgenda es).powerReset) rfl rfl rfl rfl rfl
  have hirq := irq_of_clear (s := (s.setAgenda es).powerReset) rfl rfl
  simp [hstatus, hirq, Memory.wf_afterReset]

/-- Settles O32: the values of the state the machine starts in, read off. -/
theorem resetStateHasTheSpecValues : Obligations.ResetStateHasTheSpecValues := by
  have hstatus := statusByte_of_clear (s := State.reset) rfl rfl rfl rfl rfl
  have hirq := irq_of_clear (s := State.reset) rfl rfl
  simp only [Obligations.ResetStateHasTheSpecValues, hstatus, hirq]
  simp [State.reset, State.resetWith, Config.destDefault, Config.Params.default]

/-- The reset values are legal (rule R380). -/
theorem reset_legal : State.reset.Legal where
  cfg := rfl
  canonical := reset_mem_wf
  listed := nofun
  ctrl := rfl
  errcode := Nat.zero_le _
  txLen := Nat.zero_le _
  rxBlen := Nat.zero_le _
  rxInfo := rfl
  rxCnt := Nat.zero_le _
  txIdx := Nat.zero_le _

/-- Settles O55: the phase is IDLE and the count is 0 after reset, where the invariants but Legal claim
nothing more. -/
theorem resetMeetsTheInvariants : Obligations.ResetMeetsTheInvariants :=
  ⟨reset_legal, quiet_of_idle rfl, frozen_of_idle rfl rfl, timed_of_toCnt_zero rfl,
    received_of_no_body reset_mem_wf (.inl rfl)⟩

end Sys2Proof.Machine
end
